-- ==== Sys2Proof/Word.lean ====
section
/-!
DEFINITION. The word types of the core (00_scope.md R5 to R7): everything is an unsigned bit vector of a fixed width,
and a register name is an index below 16 (10_state.md R10).
-/

namespace Sys2Proof

/-- An 8-bit value: a general register, a timer, a memory byte, an immediate `kk`. -/
abbrev Byte := BitVec 8

/-- A 16-bit value: `I`, `PC`, a stack entry, an instruction word. -/
abbrev Word := BitVec 16

/-- The 12-bit `addr` field (30_encoding.md R41, R43). -/
abbrev Addr12 := BitVec 12

/-- The name of a general register or of a key: an index 0 to 15 (10_state.md R10, R19). -/
abbrev RegIdx := Fin 16

/-- The name of the flag register `VF` (10_state.md R11). -/
abbrev vf : RegIdx := 15

end Sys2Proof
end

