-- ==== Sys2Proof/Config.lean ====
section
/-!
DEFINITION. What is fixed for this hardware (00_scope.md R5, 70_reset_and_hazards.md R116), and the one free value,
the host's random byte (60_exceptions.md R111).
-/

namespace Sys2Proof.Config

/-- `MEM_SIZE`: the bytes of memory (00_scope.md R5). -/
abbrev memSize : Nat := 4096

/-- `PROGRAM_BASE`: where Load copies the image, and the reset value of `PC` (00_scope.md R5, 20_memory.md R29). -/
abbrev programBase : Nat := 0x200

/-- `MAX_IMAGE`: the longest image Load accepts, 4096 − 512 bytes (00_scope.md R5, 70_reset_and_hazards.md R118). -/
abbrev maxImage : Nat := memSize - programBase

/-- Glyphs 0 to 7 of `FONT_TABLE`, five bytes each, top row first (70_reset_and_hazards.md R116).
PRESUMED: the spec takes these bytes from general knowledge (log entry 5). -/
def fontLow : List Byte :=
  [0xF0, 0x90, 0x90, 0x90, 0xF0] ++ [0x20, 0x60, 0x20, 0x20, 0x70] ++
  [0xF0, 0x10, 0xF0, 0x80, 0xF0] ++ [0xF0, 0x10, 0xF0, 0x10, 0xF0] ++
  [0x90, 0x90, 0xF0, 0x10, 0x10] ++ [0xF0, 0x80, 0xF0, 0x10, 0xF0] ++
  [0xF0, 0x80, 0xF0, 0x90, 0xF0] ++ [0xF0, 0x10, 0x20, 0x40, 0x40]

/-- Glyphs 8 to F of `FONT_TABLE` (70_reset_and_hazards.md R116; PRESUMED, log entry 5). -/
def fontHigh : List Byte :=
  [0xF0, 0x90, 0xF0, 0x90, 0xF0] ++ [0xF0, 0x90, 0xF0, 0x10, 0xF0] ++
  [0xF0, 0x90, 0xF0, 0x90, 0x90] ++ [0xE0, 0x90, 0xE0, 0x90, 0xE0] ++
  [0xF0, 0x80, 0x80, 0x80, 0xF0] ++ [0xE0, 0x90, 0x90, 0x90, 0xE0] ++
  [0xF0, 0x80, 0xF0, 0x80, 0xF0] ++ [0xF0, 0x80, 0xF0, 0x80, 0x80]

/-- `FONT_TABLE`: the 80 bytes Reset writes at 0x000 (70_reset_and_hazards.md R116, decision D13). -/
def fontTable : List Byte := fontLow ++ fontHigh

/-- The byte `rnd` the host passes with the `k`-th step: a free value under no law (60_exceptions.md R111,
decision D15). It has no body, so nothing can be proved of it (log entry 1). -/
opaque randomByte : Nat → Byte

end Sys2Proof.Config
end

