-- ==== Sys2Proof/Syntax.lean ====
section
/-!
DEFINITION. The 34 instructions (00_scope.md R2, 30_encoding.md R44): one constructor for each row of
spec/opcode_table.json, in the table's order, with the operands the row's format names (30_encoding.md R42, R43).

The operand types carry the bounds of 30_encoding.md R41: a register name is below 16, `n` is below 16, `kk` has
8 bits and `addr` 12. No ill-formed instruction can be written. `UNKNOWN` words are no instructions (R45).
-/

namespace Sys2Proof

/-- The instruction set. -/
inductive Instr where
  /-- `00E0` CLS (44_display.md R87). -/
  | cls
  /-- `00EE` RET (41_control_flow.md R58). -/
  | ret
  /-- `1nnn` JP addr (41_control_flow.md R59). -/
  | jpAddr (addr : Addr12)
  /-- `2nnn` CALL addr (41_control_flow.md R60). -/
  | callAddr (addr : Addr12)
  /-- `3xkk` SE Vx, kk (41_control_flow.md R61). -/
  | seVxKk (x : RegIdx) (kk : Byte)
  /-- `4xkk` SNE Vx, kk (41_control_flow.md R62). -/
  | sneVxKk (x : RegIdx) (kk : Byte)
  /-- `5xy0` SE Vx, Vy (41_control_flow.md R63). -/
  | seVxVy (x y : RegIdx)
  /-- `6xkk` LD Vx, kk (42_alu.md R67). -/
  | ldVxKk (x : RegIdx) (kk : Byte)
  /-- `7xkk` ADD Vx, kk (42_alu.md R68). -/
  | addVxKk (x : RegIdx) (kk : Byte)
  /-- `8xy0` LD Vx, Vy (42_alu.md R69). -/
  | ldVxVy (x y : RegIdx)
  /-- `8xy1` OR Vx, Vy (42_alu.md R70). -/
  | orVxVy (x y : RegIdx)
  /-- `8xy2` AND Vx, Vy (42_alu.md R71). -/
  | andVxVy (x y : RegIdx)
  /-- `8xy3` XOR Vx, Vy (42_alu.md R72). -/
  | xorVxVy (x y : RegIdx)
  /-- `8xy4` ADD Vx, Vy (42_alu.md R73). -/
  | addVxVy (x y : RegIdx)
  /-- `8xy5` SUB Vx, Vy (42_alu.md R74). -/
  | subVxVy (x y : RegIdx)
  /-- `8xy6` SHR Vx (42_alu.md R75). The `y` field is encoded but not read. -/
  | shrVx (x y : RegIdx)
  /-- `8xy7` SUBN Vx, Vy (42_alu.md R76). -/
  | subnVxVy (x y : RegIdx)
  /-- `8xyE` SHL Vx (42_alu.md R77). The `y` field is encoded but not read. -/
  | shlVx (x y : RegIdx)
  /-- `9xy0` SNE Vx, Vy (41_control_flow.md R64). -/
  | sneVxVy (x y : RegIdx)
  /-- `Annn` LD I, addr (43_index_memory.md R81). -/
  | ldIAddr (addr : Addr12)
  /-- `Bnnn` JP V0, addr (41_control_flow.md R65). -/
  | jpV0Addr (addr : Addr12)
  /-- `Cxkk` RND Vx, kk (42_alu.md R78). -/
  | rndVxKk (x : RegIdx) (kk : Byte)
  /-- `Dxyn` DRW Vx, Vy, n (44_display.md R88). -/
  | drwVxVyN (x y : RegIdx) (n : Fin 16)
  /-- `Ex9E` SKP Vx (45_timers_input.md R91). -/
  | skpVx (x : RegIdx)
  /-- `ExA1` SKNP Vx (45_timers_input.md R92). -/
  | sknpVx (x : RegIdx)
  /-- `Fx07` LD Vx, DT (45_timers_input.md R93). -/
  | ldVxDt (x : RegIdx)
  /-- `Fx0A` LD Vx, K (45_timers_input.md R94). -/
  | ldVxK (x : RegIdx)
  /-- `Fx15` LD DT, Vx (45_timers_input.md R95). -/
  | ldDtVx (x : RegIdx)
  /-- `Fx18` LD ST, Vx (45_timers_input.md R96). -/
  | ldStVx (x : RegIdx)
  /-- `Fx1E` ADD I, Vx (43_index_memory.md R82). -/
  | addIVx (x : RegIdx)
  /-- `Fx29` LD F, Vx (43_index_memory.md R83). -/
  | ldFVx (x : RegIdx)
  /-- `Fx33` LD B, Vx (43_index_memory.md R84). -/
  | ldBVx (x : RegIdx)
  /-- `Fx55` LD [I], Vx (43_index_memory.md R85). -/
  | ldMemIVx (x : RegIdx)
  /-- `Fx65` LD Vx, [I] (43_index_memory.md R86). -/
  | ldVxMemI (x : RegIdx)
  deriving DecidableEq, Repr

end Sys2Proof
end

