-- ==== Sys2Proof/WellFormed.lean ====
section
/-!
DEFINITION. The checks on what comes from outside as bits: an instruction word (30_encoding.md R44 to R46, by the
match and mask of spec/opcode_table.json) and a program image (70_reset_and_hazards.md R118).

An `Instr` needs no check of its own: its operand types carry the bounds of 30_encoding.md R41 (log entry 13).
The table here is written from opcode_table.json; the decoder of Decode.lean from the case tree of 30_encoding.md R44.
-/

namespace Sys2Proof

/-- The fixed bits of one row of the opcode table: a word `w` is of the row when `w AND mask = value`. -/
structure OpRow where
  mask : Word
  value : Word
  deriving DecidableEq, Repr

/-- Does the word carry every fixed bit of the row (30_encoding.md R44: "an exact match is required")? -/
def OpRow.admits (r : OpRow) (w : Word) : Bool := w &&& r.mask == r.value

/-- The row of spec/opcode_table.json an instruction stands for. -/
def Instr.row : Instr → OpRow
  | .cls => ⟨0xFFFF, 0x00E0⟩  -- CLS, 00E0
  | .ret => ⟨0xFFFF, 0x00EE⟩  -- RET, 00EE
  | .jpAddr _ => ⟨0xF000, 0x1000⟩  -- JP_addr, 1nnn
  | .callAddr _ => ⟨0xF000, 0x2000⟩  -- CALL_addr, 2nnn
  | .seVxKk _ _ => ⟨0xF000, 0x3000⟩  -- SE_Vx__kk, 3xkk
  | .sneVxKk _ _ => ⟨0xF000, 0x4000⟩  -- SNE_Vx__kk, 4xkk
  | .seVxVy _ _ => ⟨0xF00F, 0x5000⟩  -- SE_Vx__Vy, 5xy0
  | .ldVxKk _ _ => ⟨0xF000, 0x6000⟩  -- LD_Vx__kk, 6xkk
  | .addVxKk _ _ => ⟨0xF000, 0x7000⟩  -- ADD_Vx__kk, 7xkk
  | .ldVxVy _ _ => ⟨0xF00F, 0x8000⟩  -- LD_Vx__Vy, 8xy0
  | .orVxVy _ _ => ⟨0xF00F, 0x8001⟩  -- OR_Vx__Vy, 8xy1
  | .andVxVy _ _ => ⟨0xF00F, 0x8002⟩  -- AND_Vx__Vy, 8xy2
  | .xorVxVy _ _ => ⟨0xF00F, 0x8003⟩  -- XOR_Vx__Vy, 8xy3
  | .addVxVy _ _ => ⟨0xF00F, 0x8004⟩  -- ADD_Vx__Vy, 8xy4
  | .subVxVy _ _ => ⟨0xF00F, 0x8005⟩  -- SUB_Vx__Vy, 8xy5
  | .shrVx _ _ => ⟨0xF00F, 0x8006⟩  -- SHR_Vx, 8xy6
  | .subnVxVy _ _ => ⟨0xF00F, 0x8007⟩  -- SUBN_Vx__Vy, 8xy7
  | .shlVx _ _ => ⟨0xF00F, 0x800E⟩  -- SHL_Vx, 8xyE
  | .sneVxVy _ _ => ⟨0xF00F, 0x9000⟩  -- SNE_Vx__Vy, 9xy0
  | .ldIAddr _ => ⟨0xF000, 0xA000⟩  -- LD_I__addr, Annn
  | .jpV0Addr _ => ⟨0xF000, 0xB000⟩  -- JP_V0__addr, Bnnn
  | .rndVxKk _ _ => ⟨0xF000, 0xC000⟩  -- RND_Vx__kk, Cxkk
  | .drwVxVyN _ _ _ => ⟨0xF000, 0xD000⟩  -- DRW_Vx__Vy__n, Dxyn
  | .skpVx _ => ⟨0xF0FF, 0xE09E⟩  -- SKP_Vx, Ex9E
  | .sknpVx _ => ⟨0xF0FF, 0xE0A1⟩  -- SKNP_Vx, ExA1
  | .ldVxDt _ => ⟨0xF0FF, 0xF007⟩  -- LD_Vx__DT, Fx07
  | .ldVxK _ => ⟨0xF0FF, 0xF00A⟩  -- LD_Vx__K, Fx0A
  | .ldDtVx _ => ⟨0xF0FF, 0xF015⟩  -- LD_DT__Vx, Fx15
  | .ldStVx _ => ⟨0xF0FF, 0xF018⟩  -- LD_ST__Vx, Fx18
  | .addIVx _ => ⟨0xF0FF, 0xF01E⟩  -- ADD_I__Vx, Fx1E
  | .ldFVx _ => ⟨0xF0FF, 0xF029⟩  -- LD_F__Vx, Fx29
  | .ldBVx _ => ⟨0xF0FF, 0xF033⟩  -- LD_B__Vx, Fx33
  | .ldMemIVx _ => ⟨0xF0FF, 0xF055⟩  -- LD__I___Vx, Fx55
  | .ldVxMemI _ => ⟨0xF0FF, 0xF065⟩  -- LD_Vx___I, Fx65

/-- The first rows of the opcode table: high nibbles 0 to 7. -/
def opRowsLow : List OpRow :=
  [⟨0xFFFF, 0x00E0⟩, ⟨0xFFFF, 0x00EE⟩, ⟨0xF000, 0x1000⟩, ⟨0xF000, 0x2000⟩, ⟨0xF000, 0x3000⟩,
   ⟨0xF000, 0x4000⟩, ⟨0xF00F, 0x5000⟩, ⟨0xF000, 0x6000⟩, ⟨0xF000, 0x7000⟩]

/-- The other rows of the opcode table: high nibbles 8 to F. -/
def opRowsHigh : List OpRow :=
  [⟨0xF00F, 0x8000⟩, ⟨0xF00F, 0x8001⟩, ⟨0xF00F, 0x8002⟩, ⟨0xF00F, 0x8003⟩, ⟨0xF00F, 0x8004⟩,
   ⟨0xF00F, 0x8005⟩, ⟨0xF00F, 0x8006⟩, ⟨0xF00F, 0x8007⟩, ⟨0xF00F, 0x800E⟩, ⟨0xF00F, 0x9000⟩,
   ⟨0xF000, 0xA000⟩, ⟨0xF000, 0xB000⟩, ⟨0xF000, 0xC000⟩, ⟨0xF000, 0xD000⟩, ⟨0xF0FF, 0xE09E⟩,
   ⟨0xF0FF, 0xE0A1⟩, ⟨0xF0FF, 0xF007⟩, ⟨0xF0FF, 0xF00A⟩, ⟨0xF0FF, 0xF015⟩, ⟨0xF0FF, 0xF018⟩,
   ⟨0xF0FF, 0xF01E⟩, ⟨0xF0FF, 0xF029⟩, ⟨0xF0FF, 0xF033⟩, ⟨0xF0FF, 0xF055⟩, ⟨0xF0FF, 0xF065⟩]

/-- The 34 rows of spec/opcode_table.json. -/
def opRows : List OpRow := opRowsLow ++ opRowsHigh

/-- Is the word one of the 34 instructions? Every other word is `UNKNOWN` (30_encoding.md R45, R46). -/
def isInstrWord (w : Word) : Bool := opRows.any (·.admits w)

/-- Does the image fit into program memory (70_reset_and_hazards.md R118: it "fails if L exceeds" 3584)? -/
def imageFits (image : List Byte) : Bool := image.length ≤ Config.maxImage

end Sys2Proof
end

