-- ==== Sys2Proof/Decode.lean ====
section
/-!
DEFINITION. Decode and encode (30_encoding.md): the fields of a word (R41), the case tree from a word to an
instruction or a rejection (R44, R45), and the encoder, written from the formats of R42.
-/

namespace Sys2Proof

/-- The two bytes of a fetched word, the one at the lower address first: big-endian (20_memory.md R31, R40). -/
def joinBytes (hi lo : Byte) : Word := hi ++ lo

/-- The byte of a word that lies at the lower address, `w[15:8]` (20_memory.md R31). -/
def highByte (w : Word) : Byte := w.extractLsb' 8 8

/-- The byte of a word that lies at the higher address, `w[7:0]` (20_memory.md R31). -/
def lowByte (w : Word) : Byte := w.extractLsb' 0 8

/-- `op`, the high nibble `w[15:12]` (30_encoding.md R41). -/
def fieldOp (w : Word) : Fin 16 := (w.extractLsb' 12 4).toFin

/-- `x = w[11:8]` (30_encoding.md R41). -/
def fieldX (w : Word) : RegIdx := (w.extractLsb' 8 4).toFin

/-- `y = w[7:4]` (30_encoding.md R41). -/
def fieldY (w : Word) : RegIdx := (w.extractLsb' 4 4).toFin

/-- `n = w[3:0]` (30_encoding.md R41). -/
def fieldN (w : Word) : Fin 16 := (w.extractLsb' 0 4).toFin

/-- `kk = w[7:0]` (30_encoding.md R41). -/
def fieldKk (w : Word) : Byte := w.extractLsb' 0 8

/-- `addr = w[11:0]` (30_encoding.md R41). -/
def fieldAddr (w : Word) : Addr12 := w.extractLsb' 0 12

/-- Why bytes are no instruction. -/
inductive DecodeReject where
  /-- The word is `UNKNOWN`: no row of the opcode table admits it (30_encoding.md R45). Safe: the step reports it. -/
  | unknown (w : Word)
  /-- Fewer than the two bytes of a word (30_encoding.md R47). Safe; a fetch always gives two bytes. -/
  | truncated
  deriving DecidableEq, Repr

/-- The family of high nibble 0 (30_encoding.md R44). -/
def decode0 (w : Word) : Except DecodeReject Instr :=
  if w = 0x00E0 then .ok .cls
  else if w = 0x00EE then .ok .ret
  else .error (.unknown w)

/-- The family of high nibble 8, by its low nibble `n` (30_encoding.md R44). -/
def decode8 (w : Word) : Except DecodeReject Instr :=
  match (fieldN w).val with
  | 0x0 => .ok (.ldVxVy (fieldX w) (fieldY w))
  | 0x1 => .ok (.orVxVy (fieldX w) (fieldY w))
  | 0x2 => .ok (.andVxVy (fieldX w) (fieldY w))
  | 0x3 => .ok (.xorVxVy (fieldX w) (fieldY w))
  | 0x4 => .ok (.addVxVy (fieldX w) (fieldY w))
  | 0x5 => .ok (.subVxVy (fieldX w) (fieldY w))
  | 0x6 => .ok (.shrVx (fieldX w) (fieldY w))
  | 0x7 => .ok (.subnVxVy (fieldX w) (fieldY w))
  | 0xE => .ok (.shlVx (fieldX w) (fieldY w))
  | _ => .error (.unknown w)

/-- The family of high nibble E, by its low byte `kk` (30_encoding.md R44). -/
def decodeE (w : Word) : Except DecodeReject Instr :=
  match (fieldKk w).toNat with
  | 0x9E => .ok (.skpVx (fieldX w))
  | 0xA1 => .ok (.sknpVx (fieldX w))
  | _ => .error (.unknown w)

/-- The family of high nibble F, by its low byte `kk` (30_encoding.md R44). -/
def decodeF (w : Word) : Except DecodeReject Instr :=
  match (fieldKk w).toNat with
  | 0x07 => .ok (.ldVxDt (fieldX w))
  | 0x0A => .ok (.ldVxK (fieldX w))
  | 0x15 => .ok (.ldDtVx (fieldX w))
  | 0x18 => .ok (.ldStVx (fieldX w))
  | 0x1E => .ok (.addIVx (fieldX w))
  | 0x29 => .ok (.ldFVx (fieldX w))
  | 0x33 => .ok (.ldBVx (fieldX w))
  | 0x55 => .ok (.ldMemIVx (fieldX w))
  | 0x65 => .ok (.ldVxMemI (fieldX w))
  | _ => .error (.unknown w)

/-- The instruction a word is, or its rejection: total on all 65536 words (30_encoding.md R44). -/
def decode (w : Word) : Except DecodeReject Instr :=
  match (fieldOp w).val with
  | 0x0 => decode0 w
  | 0x1 => .ok (.jpAddr (fieldAddr w))
  | 0x2 => .ok (.callAddr (fieldAddr w))
  | 0x3 => .ok (.seVxKk (fieldX w) (fieldKk w))
  | 0x4 => .ok (.sneVxKk (fieldX w) (fieldKk w))
  | 0x5 => if (fieldN w).val = 0 then .ok (.seVxVy (fieldX w) (fieldY w)) else .error (.unknown w)
  | 0x6 => .ok (.ldVxKk (fieldX w) (fieldKk w))
  | 0x7 => .ok (.addVxKk (fieldX w) (fieldKk w))
  | 0x8 => decode8 w
  | 0x9 => if (fieldN w).val = 0 then .ok (.sneVxVy (fieldX w) (fieldY w)) else .error (.unknown w)
  | 0xA => .ok (.ldIAddr (fieldAddr w))
  | 0xB => .ok (.jpV0Addr (fieldAddr w))
  | 0xC => .ok (.rndVxKk (fieldX w) (fieldKk w))
  | 0xD => .ok (.drwVxVyN (fieldX w) (fieldY w) (fieldN w))
  | 0xE => decodeE w
  | 0xF => decodeF w
  | _ => .error (.unknown w)

/-- The instruction at the head of a byte stream, with the bytes that follow it (30_encoding.md R40, R47: two bytes,
the high one first). -/
def decodeBytes : List Byte → Except DecodeReject (Instr × List Byte)
  | hi :: lo :: rest =>
    match decode (joinBytes hi lo) with
    | .ok i => .ok (i, rest)
    | .error e => .error e
  | _ => .error .truncated

/-! ## The encoder -/

/-- Format `A`: `oooo aaaa aaaa aaaa` (30_encoding.md R42). -/
def formatA (op : BitVec 4) (addr : Addr12) : Word := op ++ addr

/-- Formats `XK` and `X`: `oooo xxxx kkkk kkkk`; in format `X` the low byte is the sub-opcode (30_encoding.md R42). -/
def formatXK (op : BitVec 4) (x : RegIdx) (kk : Byte) : Word :=
  (op ++ (BitVec.ofFin x : BitVec 4) : BitVec 8) ++ kk

/-- Formats `XY` and `XYN`: `oooo xxxx yyyy nnnn`; in format `XY` the low nibble is the sub-opcode
(30_encoding.md R42). -/
def formatXYN (op : BitVec 4) (x y : RegIdx) (n : Fin 16) : Word :=
  (op ++ (BitVec.ofFin x : BitVec 4) : BitVec 8) ++
    ((BitVec.ofFin y : BitVec 4) ++ (BitVec.ofFin n : BitVec 4) : BitVec 8)

/-- The word of an instruction (30_encoding.md R42 and the table of R44). -/
def encode : Instr → Word
  | .cls => 0x00E0
  | .ret => 0x00EE
  | .jpAddr addr => formatA 0x1 addr
  | .callAddr addr => formatA 0x2 addr
  | .seVxKk x kk => formatXK 0x3 x kk
  | .sneVxKk x kk => formatXK 0x4 x kk
  | .seVxVy x y => formatXYN 0x5 x y 0x0
  | .ldVxKk x kk => formatXK 0x6 x kk
  | .addVxKk x kk => formatXK 0x7 x kk
  | .ldVxVy x y => formatXYN 0x8 x y 0x0
  | .orVxVy x y => formatXYN 0x8 x y 0x1
  | .andVxVy x y => formatXYN 0x8 x y 0x2
  | .xorVxVy x y => formatXYN 0x8 x y 0x3
  | .addVxVy x y => formatXYN 0x8 x y 0x4
  | .subVxVy x y => formatXYN 0x8 x y 0x5
  | .shrVx x y => formatXYN 0x8 x y 0x6
  | .subnVxVy x y => formatXYN 0x8 x y 0x7
  | .shlVx x y => formatXYN 0x8 x y 0xE
  | .sneVxVy x y => formatXYN 0x9 x y 0x0
  | .ldIAddr addr => formatA 0xA addr
  | .jpV0Addr addr => formatA 0xB addr
  | .rndVxKk x kk => formatXK 0xC x kk
  | .drwVxVyN x y n => formatXYN 0xD x y n
  | .skpVx x => formatXK 0xE x 0x9E
  | .sknpVx x => formatXK 0xE x 0xA1
  | .ldVxDt x => formatXK 0xF x 0x07
  | .ldVxK x => formatXK 0xF x 0x0A
  | .ldDtVx x => formatXK 0xF x 0x15
  | .ldStVx x => formatXK 0xF x 0x18
  | .addIVx x => formatXK 0xF x 0x1E
  | .ldFVx x => formatXK 0xF x 0x29
  | .ldBVx x => formatXK 0xF x 0x33
  | .ldMemIVx x => formatXK 0xF x 0x55
  | .ldVxMemI x => formatXK 0xF x 0x65

/-! ## The opcode table's numbering of bits -/

/-- The bytes of the instruction whose bits are `w`, numbered as spec/opcode_table.json numbers them: one 16-bit
word, its high byte at the lower address (20_memory.md R31). Bits from `nbits` up are 0. -/
def tableBytes (nbits w : Nat) : List Byte :=
  let word : Word := BitVec.ofNat 16 (w % 2 ^ nbits)
  [highByte word, lowByte word]

/-- The instruction the decoder reads from the table's bits. -/
def decodeTableWord (nbits w : Nat) : Option Instr :=
  match decodeBytes (tableBytes nbits w) with
  | .ok (i, _) => some i
  | .error _ => none

end Sys2Proof
end

