-- ==== Sys2Proof/Machine/State.lean ====
section
/-!
DEFINITION. The state of the core (10_state.md R10 to R25) as plain data, and the state after Reset (R24).
-/

namespace Sys2Proof.Machine

/-- The three fault causes (60_exceptions.md R97). -/
inductive FaultCause where
  /-- Code 1: CALL with 16 entries in use (41_control_flow.md R60, decision D3). -/
  | stackOverflow
  /-- Code 2: RET with no entry in use (41_control_flow.md R58, decision D4). -/
  | stackUnderflow
  /-- Code 3: SKP or SKNP with a key index above 0xF (45_timers_input.md R91, R92, decision D5). -/
  | keyIndexRange
  deriving DecidableEq, Repr

/-- The record a fault leaves in `FAULT`: the cause, the address of the faulting instruction and its word
(10_state.md R21, 60_exceptions.md R98). -/
structure FaultRecord where
  cause : FaultCause
  pc : Word
  word : Word
  deriving DecidableEq, Repr

/-- The event of a step that executes an `UNKNOWN` word: the word and the address it was fetched from
(60_exceptions.md R99). -/
structure UnknownReport where
  word : Word
  addr : Word
  deriving DecidableEq, Repr

/-- Why a step would end the machine: there is no such reason. A fault of this core is an ordinary next state whose
`fault` field holds the record, and the core keeps stepping (40_cycle.md R54, R55, R57: "No instruction halts the
core"). No constructor, hence nobody raises one; safe. -/
inductive Fault where
  deriving DecidableEq, Repr

/-- Why the model would have no meaning for an instruction. -/
inductive Refusal where
  /-- An arm of `exec` that has no meaning yet. No arm is left that answers so; safe. -/
  | notModelled (mnemonic : String)
  deriving DecidableEq, Repr

/-- Memory as the list of the bytes that differ from what an unlisted address reads as, addresses strictly rising
(see Machine/Memory.lean). -/
abbrev Memory := List Host.Cell

/-- The framebuffer: 32 rows of 64 pixels, `FB[y][x]` at row `y` and column `x` (10_state.md R18). -/
abbrev Screen := Vector (Vector Bool 64) 32

/-- Everything the core holds. The last three fields are the model's own: they carry the step's input and output,
which are not state (10_state.md R22; log entries 1 and 2). -/
structure State where
  /-- The general registers `V[0]` to `V[15]` (10_state.md R10). -/
  v : Vector Byte 16
  /-- The index register `I` (10_state.md R12). -/
  i : Word
  /-- The program counter `PC` (10_state.md R13). -/
  pc : Word
  /-- The call stack `STACK[0..15]` (10_state.md R14). -/
  stack : Vector Word 16
  /-- The stack pointer `SP`, the number of entries in use, 0 to 16 inclusive (10_state.md R15). -/
  sp : Fin 17
  /-- The delay timer `DT` (10_state.md R16). -/
  dt : Byte
  /-- The sound timer `ST` (10_state.md R16). -/
  st : Byte
  /-- Memory `MEM` (10_state.md R17). -/
  mem : Memory
  /-- The framebuffer `FB` (10_state.md R18). -/
  fb : Screen
  /-- The key state `KEY[0..15]` (10_state.md R19). -/
  key : Vector Bool 16
  /-- The redraw flag `REDRAW` (10_state.md R20). -/
  redraw : Bool
  /-- The fault status `FAULT`; `none` is the spec's `NONE` (10_state.md R21). -/
  fault : Option FaultRecord
  /-- MODEL'S OWN: the byte `rnd` the host gives with the step; overwritten as each step begins (log entry 1). -/
  rnd : Byte
  /-- MODEL'S OWN: the number of the free byte the next step takes (log entry 1). -/
  rndIndex : Nat
  /-- MODEL'S OWN: the UnknownInstruction event of the last step, if it emitted one (log entry 2). -/
  report : Option UnknownReport
  deriving DecidableEq, Repr

/-- The state after Reset (10_state.md R24). Memory lists nothing: an unlisted address reads as Reset left it. -/
def State.reset : State where
  v := Vector.replicate 16 0
  i := 0
  pc := 0x0200
  stack := Vector.replicate 16 0
  sp := 0
  dt := 0
  st := 0
  mem := []
  fb := Vector.replicate 32 (Vector.replicate 64 false)
  key := Vector.replicate 16 false
  redraw := true
  fault := none
  rnd := 0
  rndIndex := 0
  report := none

end Sys2Proof.Machine
end

