-- ==== Sys2Proof/Machine/Memory.lean ====
section
/-!
DEFINITION. Memory (20_memory.md): the two byte primitives of R28, over a list of cells in one canonical form, and
runs of bytes built from them.
-/

namespace Sys2Proof.Machine

/-- What an address with no cell reads as: the contents Reset leaves there (10_state.md R24), which is `FONT_TABLE` in
0x000 to 0x04F and zero above. -/
def unlistedByte (a : Nat) : Byte := Config.fontTable.getD a 0

/-- The canonical form: addresses in the array and strictly rising, and no cell that equals what its address reads as
unlisted. Equal memories are then equal lists. -/
abbrev Memory.wf (m : Memory) : Prop :=
  m.Pairwise (fun c d => c.1 < d.1) ∧ ∀ c ∈ m, c.1 < Config.memSize ∧ c.2 ≠ unlistedByte c.1

/-- The byte the list gives for an address of the array. -/
def lookupCell (a : Nat) : Memory → Byte
  | [] => unlistedByte a
  | c :: cs => if c.1 = a then c.2 else lookupCell a cs

/-- `MemRead(a, 1)`: the byte at `a mod 4096` (20_memory.md R27, R28). -/
def Memory.read (m : Memory) (a : Nat) : Byte := lookupCell (a % Config.memSize) m

/-- The list without the cell of an address. -/
def eraseCell (a : Nat) (m : Memory) : Memory := m.filter (fun c => c.1 != a)

/-- The list with a cell put at its place in the rising order. -/
def insertCell (c : Host.Cell) : Memory → Memory
  | [] => [c]
  | d :: ds => if c.1 < d.1 then c :: d :: ds else d :: insertCell c ds

/-- `MemWrite(a, 1, b)`: the byte at `a mod 4096` becomes `b` (20_memory.md R27, R28). Writing what an unlisted
address reads as removes the cell. -/
def Memory.write (m : Memory) (a : Nat) (b : Byte) : Memory :=
  let k := a % Config.memSize
  if b = unlistedByte k then eraseCell k m else insertCell (k, b) (eraseCell k m)

/-- Write bytes at rising addresses from `a` on. -/
def Memory.writeBytes (m : Memory) (a : Nat) : List Byte → Memory
  | [] => m
  | b :: bs => Memory.writeBytes (m.write a b) (a + 1) bs

end Sys2Proof.Machine
end

