-- ==== Sys2Proof/Machine/Operands.lean ====
section
/-!
DEFINITION. The operand forms: how a field becomes an address, a register list or a key, and the values an instruction
computes from its operands without a flag.
-/

namespace Sys2Proof.Machine

/-- `zext_16(addr)`: the address field is widened with zeros, never shifted or scaled (30_encoding.md R43). -/
def zextAddr (addr : Addr12) : Word := addr.setWidth 16

/-- `zext_16` of a byte (00_scope.md R7). -/
def zextByte (b : Byte) : Word := b.setWidth 16

/-- `zext_16(addr) + V[0]`, the target of Bnnn (41_control_flow.md R65, 40_cycle.md R52: it never wraps). -/
def indexedTarget (addr : Addr12) (v0 : Byte) : Word := zextAddr addr + zextByte v0

/-- The effective address of byte `k`: `I + k`, unwrapped; memory reduces it at access (43_index_memory.md). -/
def effAddr (i : Word) (k : Nat) : Nat := i.toNat + k

/-- `V[x] * 5`, the address of glyph `V[x]`, with no masking (43_index_memory.md R83). -/
def glyphAddr (b : Byte) : Word := BitVec.ofNat 16 (b.toNat * 5)

/-- All indices 0 to 15 in ascending order. -/
def allIdx : List (Fin 16) := [0, 1, 2, 3, 4, 5, 6, 7, 8, 9, 10, 11, 12, 13, 14, 15]

/-- The registers `V[0..x]` in ascending order (43_index_memory.md R85, R86: "for k in 0..x"). -/
def regsUpTo (x : RegIdx) : List RegIdx := allIdx.take (x.val + 1)

/-- The key a byte names: none when it is above 0xF (45_timers_input.md R91, R92). -/
def keyIndex (b : Byte) : Option (Fin 16) :=
  if h : b.toNat < 16 then some ⟨b.toNat, h⟩ else none

/-- The scan of Fx0A: the last pressed key of the list, starting from what was found so far
(45_timers_input.md R94). -/
def scanKeys (key : Vector Bool 16) : List (Fin 16) → Option (Fin 16) → Option (Fin 16)
  | [], found => found
  | k :: ks, found => scanKeys key ks (if key[k] then some k else found)

/-- The pressed key with the highest index, if any key is pressed (45_timers_input.md R94). -/
def highestKey (key : Vector Bool 16) : Option (Fin 16) := scanKeys key allIdx none

/-- A key's index as a register value (45_timers_input.md R94: `V[x] <- found`). -/
def keyByte (k : Fin 16) : Byte := BitVec.ofNat 8 k.val

/-- The hundreds digit (43_index_memory.md R84). -/
def bcdHundreds (b : Byte) : Byte := BitVec.ofNat 8 (b.toNat / 100)

/-- The tens digit (43_index_memory.md R84). -/
def bcdTens (b : Byte) : Byte := BitVec.ofNat 8 (b.toNat / 10 % 10)

/-- The units digit (43_index_memory.md R84). -/
def bcdUnits (b : Byte) : Byte := BitVec.ofNat 8 (b.toNat % 10)

/-- One timer's tick: down by one, floor at zero (60_exceptions.md R105). -/
def tickByte (t : Byte) : Byte := if t = 0 then 0 else t - 1

end Sys2Proof.Machine
end

