-- ==== Sys2Proof/Machine/Flags.lean ====
section
/-!
DEFINITION. The values of the flag register `VF` (42_alu.md R80). The core has no other flag (10_state.md R11). Each is
computed from the operands as they stood when the execute phase began (40_cycle.md R50).
-/

namespace Sys2Proof.Machine

/-- A flag as the register holds it: 1 or 0. -/
def flagByte (b : Bool) : Byte := if b then 1 else 0

/-- 8xy4: 1 if the unwrapped sum exceeds 255 (42_alu.md R73). -/
def carryFlag (a b : Byte) : Byte := flagByte (decide (255 < a.toNat + b.toNat))

/-- 8xy5 and 8xy7, for `a - b`: 0 if `b > a` (a borrow), else 1 (42_alu.md R74, R76). -/
def notBorrowFlag (a b : Byte) : Byte := flagByte (decide ¬a.toNat < b.toNat)

/-- 8xy6: the old bit 0 (42_alu.md R75). -/
def lowBitFlag (a : Byte) : Byte := flagByte a[0]

/-- 8xyE: the old bit 7 (42_alu.md R77). -/
def highBitFlag (a : Byte) : Byte := flagByte a[7]

/-- Fx1E: 1 if the unwrapped sum `I + V[x]` exceeds 0xFFF (43_index_memory.md R82). -/
def indexFlag (i : Word) (b : Byte) : Byte := flagByte (decide (0xFFF < i.toNat + b.toNat))

/-- Dxyn: 1 if a pixel went from 1 to 0 (44_display.md R88). -/
def collisionFlag (hit : Bool) : Byte := flagByte hit

end Sys2Proof.Machine
end

