-- ==== Sys2Proof/Machine/Ops.lean ====
section
/-!
DEFINITION. The named operations over the state that the meanings are built from, each register with one way to read it
and one to write it; raising a fault (40_cycle.md R54); the report of an `UNKNOWN` word (R53); the timer tick
(60_exceptions.md R105).
-/

namespace Sys2Proof.Machine

/-! ## Registers -/

/-- Read `V[x]` (10_state.md R10). -/
def State.readV (s : State) (x : RegIdx) : Byte := s.v[x]

/-- Write `V[x]`; no register is hardwired (10_state.md R10). -/
def State.writeV (s : State) (x : RegIdx) (b : Byte) : State := { s with v := s.v.set x b }

/-- Write the flag to `VF`, over whatever it holds (10_state.md R11, 40_cycle.md R50). -/
def State.writeFlag (s : State) (b : Byte) : State := s.writeV vf b

/-- Write `I`, all 16 bits (10_state.md R12). -/
def State.setI (s : State) (w : Word) : State := { s with i := w }

/-- Write `DT` (10_state.md R16). -/
def State.setDt (s : State) (b : Byte) : State := { s with dt := b }

/-- Write `ST` (10_state.md R16). -/
def State.setSt (s : State) (b : Byte) : State := { s with st := b }

/-! ## The program counter (40_cycle.md R51, R52) -/

/-- `PC <- w`. -/
def State.setPc (s : State) (w : Word) : State := { s with pc := w }

/-- The default advance: `trunc16(pc0 + 2)` (40_cycle.md R51). -/
def State.advance (s : State) : State := s.setPc (s.pc + 2)

/-- A skip: `trunc16(pc0 + 4)` when it is taken, `trunc16(pc0 + 2)` when not (40_cycle.md R51). -/
def State.skipIf (s : State) (taken : Bool) : State := s.setPc (if taken then s.pc + 4 else s.pc + 2)

/-! ## The call stack (10_state.md R14, R15) -/

/-- A push: `STACK[SP] <- w`, then `SP <- SP + 1`; none when 16 entries are in use. -/
def State.push (s : State) (w : Word) : Option State :=
  if h : s.sp.val < 16 then
    some { s with stack := s.stack.set s.sp.val w h, sp := ⟨s.sp.val + 1, by omega⟩ }
  else none

/-- A pop: `SP <- SP - 1`, then read `STACK[SP]`, which keeps its value; none when no entry is in use. -/
def State.pop (s : State) : Option (Word × State) :=
  if h : 0 < s.sp.val then
    some (s.stack[s.sp.val - 1], { s with sp := ⟨s.sp.val - 1, by omega⟩ })
  else none

/-! ## Memory (20_memory.md R28) -/

/-- Read the byte of memory at `a mod 4096`. -/
def State.readMem (s : State) (a : Nat) : Byte := s.mem.read a

/-- Write the byte of memory at `a mod 4096`. -/
def State.writeMem (s : State) (a : Nat) (b : Byte) : State := { s with mem := s.mem.write a b }

/-- Write bytes at rising addresses from `a` on. -/
def State.writeMemBytes (s : State) (a : Nat) (bs : List Byte) : State :=
  { s with mem := s.mem.writeBytes a bs }

/-- `V[k] <- MemRead(I + k, 1)` for each listed register, in order; `m` and `i` are the values before the instruction
(43_index_memory.md R86). -/
def loadRegs (m : Memory) (i : Word) : List RegIdx → Vector Byte 16 → Vector Byte 16
  | [], v => v
  | k :: ks, v => loadRegs m i ks (v.set k (m.read (effAddr i k.val)))

/-- Load the listed registers from memory at `I`. -/
def State.loadRegs (s : State) (ks : List RegIdx) : State :=
  { s with v := Sys2Proof.Machine.loadRegs s.mem s.i ks s.v }

/-- The word at `PC`, big-endian (20_memory.md R31, R32, 30_encoding.md R40). -/
def State.fetchWord (s : State) : Word :=
  joinBytes (s.readMem s.pc.toNat) (s.readMem (s.pc.toNat + 1))

/-! ## The framebuffer (10_state.md R18) -/

/-- The pixel `FB[y][x]`. -/
def State.pixel (s : State) (y : Fin 32) (x : Fin 64) : Bool := s.fb[y][x]

/-- Replace the framebuffer and set `REDRAW`: every instruction that mutates the one sets the other
(10_state.md R20). -/
def State.setScreen (s : State) (fb : Screen) : State := { s with fb := fb, redraw := true }

/-- All 2048 pixels 0 (44_display.md R87). -/
def blankScreen : Screen := Vector.replicate 32 (Vector.replicate 64 false)

/-- `FB[y][x] <- FB[y][x] XOR 1` (44_display.md R88). -/
def flipPixel (fb : Screen) (y : Fin 32) (x : Fin 64) : Screen := fb.set y (fb[y].set x (!fb[y][x]))

/-- The columns a sprite row byte sets, leftmost first: bit 7 is column 0 (44_display.md R89).
PRESUMED bit order: the spec takes it from general knowledge (log entry 6). -/
def rowColumns (b : Byte) : List Nat := [0, 1, 2, 3, 4, 5, 6, 7].filter (fun col => b.getLsbD (7 - col))

/-- The framebuffer cell of sprite position (`row`, `col`) drawn from corner (`x0`, `y0`), each coordinate wrapped at
its own screen edge (44_display.md R88, 90_conflicts.md C2). -/
def spriteCell (x0 y0 : Byte) (row col : Nat) : Fin 32 × Fin 64 :=
  (⟨(y0.toNat + row) % 32, Nat.mod_lt _ (by decide)⟩, ⟨(x0.toNat + col) % 64, Nat.mod_lt _ (by decide)⟩)

/-- The cells a sprite of `n` rows at `I` touches, in the order of the pseudocode of 44_display.md R88. -/
def spriteCells (m : Memory) (i : Word) (x0 y0 : Byte) (n : Nat) : List (Fin 32 × Fin 64) :=
  (List.range n).flatMap fun row => (rowColumns (m.read (effAddr i row))).map (spriteCell x0 y0 row)

/-- Flip the listed pixels one after another, noting whether one of them was set (44_display.md R88). -/
def blit : List (Fin 32 × Fin 64) → Screen → Bool → Screen × Bool
  | [], fb, hit => (fb, hit)
  | c :: cs, fb, hit => blit cs (flipPixel fb c.1 c.2) (hit || fb[c.1][c.2])

/-! ## Faults, reports and the tick -/

/-- Raise a fault: the record `(cause, pc0, word)` goes to `FAULT` and nothing else changes, so `PC` stays at the
faulting instruction (40_cycle.md R54, 60_exceptions.md R98, R101). There is no return from it: only the host's Reset
clears `FAULT` (60_exceptions.md R102; `State.hostReset` in Machine/HostOps.lean). -/
def State.takeFault (s : State) (cause : FaultCause) (word : Word) : State :=
  { s with fault := some ⟨cause, s.pc, word⟩ }

/-- Execute an `UNKNOWN` word: emit the report and advance by 2; no other write (40_cycle.md R53). -/
def State.reportUnknown (s : State) (word : Word) : State :=
  { s.advance with report := some ⟨word, s.pc⟩ }

/-- The timer tick: each timer down by one, floor at zero (60_exceptions.md R105). -/
def State.tick (s : State) : State := { s with dt := tickByte s.dt, st := tickByte s.st }

/-- A step begins: the host's byte is its input (60_exceptions.md R111), and no report has been emitted in it (R99). -/
def State.beginStep (s : State) (rnd : Byte) : State := { s with rnd := rnd, report := none }

end Sys2Proof.Machine
end

