-- ==== Sys2Proof/Machine/Alu.lean ====
section
/-!
DEFINITION. Register loads and the arithmetic-logic unit (42_alu.md). Every operand is read from the state the
instruction found, and a flag is written last (40_cycle.md R50).
-/

namespace Sys2Proof.Machine

/-- `6xkk` LD Vx, kk (42_alu.md R67). -/
def execLdVxKk (x : RegIdx) (kk : Byte) (s : State) : Host.Outcome State Fault Refusal :=
  .next (s.writeV x kk).advance

/-- `7xkk` ADD Vx, kk (42_alu.md R68): no flag. -/
def execAddVxKk (x : RegIdx) (kk : Byte) (s : State) : Host.Outcome State Fault Refusal :=
  .next (s.writeV x (s.readV x + kk)).advance

/-- `8xy0` LD Vx, Vy (42_alu.md R69). -/
def execLdVxVy (x y : RegIdx) (s : State) : Host.Outcome State Fault Refusal :=
  .next (s.writeV x (s.readV y)).advance

/-- `8xy1` OR Vx, Vy (42_alu.md R70). -/
def execOrVxVy (x y : RegIdx) (s : State) : Host.Outcome State Fault Refusal :=
  .next (s.writeV x (s.readV x ||| s.readV y)).advance

/-- `8xy2` AND Vx, Vy (42_alu.md R71). -/
def execAndVxVy (x y : RegIdx) (s : State) : Host.Outcome State Fault Refusal :=
  .next (s.writeV x (s.readV x &&& s.readV y)).advance

/-- `8xy3` XOR Vx, Vy (42_alu.md R72). -/
def execXorVxVy (x y : RegIdx) (s : State) : Host.Outcome State Fault Refusal :=
  .next (s.writeV x (s.readV x ^^^ s.readV y)).advance

/-- `8xy4` ADD Vx, Vy (42_alu.md R73): `VF` is the carry. -/
def execAddVxVy (x y : RegIdx) (s : State) : Host.Outcome State Fault Refusal :=
  .next ((s.writeV x (s.readV x + s.readV y)).writeFlag (carryFlag (s.readV x) (s.readV y))).advance

/-- `8xy5` SUB Vx, Vy (42_alu.md R74): `VF` is not-borrow. -/
def execSubVxVy (x y : RegIdx) (s : State) : Host.Outcome State Fault Refusal :=
  .next ((s.writeV x (s.readV x - s.readV y)).writeFlag (notBorrowFlag (s.readV x) (s.readV y))).advance

/-- `8xy6` SHR Vx (42_alu.md R75): `VF` is the bit shifted out; `V[y]` is not read. -/
def execShrVx (x : RegIdx) (s : State) : Host.Outcome State Fault Refusal :=
  .next ((s.writeV x (s.readV x >>> 1)).writeFlag (lowBitFlag (s.readV x))).advance

/-- `8xy7` SUBN Vx, Vy (42_alu.md R76): `V[y] - V[x]`, `VF` is not-borrow. -/
def execSubnVxVy (x y : RegIdx) (s : State) : Host.Outcome State Fault Refusal :=
  .next ((s.writeV x (s.readV y - s.readV x)).writeFlag (notBorrowFlag (s.readV y) (s.readV x))).advance

/-- `8xyE` SHL Vx (42_alu.md R77): `VF` is the bit shifted out; `V[y]` is not read. -/
def execShlVx (x : RegIdx) (s : State) : Host.Outcome State Fault Refusal :=
  .next ((s.writeV x (s.readV x <<< 1)).writeFlag (highBitFlag (s.readV x))).advance

/-- `Cxkk` RND Vx, kk (42_alu.md R78): the step's random byte, masked. -/
def execRndVxKk (x : RegIdx) (kk : Byte) (s : State) : Host.Outcome State Fault Refusal :=
  .next (s.writeV x (s.rnd &&& kk)).advance

end Sys2Proof.Machine
end

