-- ==== Sys2Proof/Machine/ControlFlow.lean ====
section
/-!
DEFINITION. Control transfer (41_control_flow.md): return, jumps, call and the register skips.
-/

namespace Sys2Proof.Machine

/-- `00EE` RET (41_control_flow.md R58): the return lands two bytes past the address the call pushed. -/
def execRet (s : State) : Host.Outcome State Fault Refusal :=
  match s.pop with
  | some (w, s') => .next (s'.setPc (w + 2))
  | none => .next (s.takeFault .stackUnderflow (encode .ret))

/-- `1nnn` JP addr (41_control_flow.md R59). -/
def execJpAddr (addr : Addr12) (s : State) : Host.Outcome State Fault Refusal :=
  .next (s.setPc (zextAddr addr))

/-- `2nnn` CALL addr (41_control_flow.md R60): the call's own address is pushed. -/
def execCallAddr (addr : Addr12) (s : State) : Host.Outcome State Fault Refusal :=
  match s.push s.pc with
  | some s' => .next (s'.setPc (zextAddr addr))
  | none => .next (s.takeFault .stackOverflow (encode (.callAddr addr)))

/-- `3xkk` SE Vx, kk (41_control_flow.md R61). -/
def execSeVxKk (x : RegIdx) (kk : Byte) (s : State) : Host.Outcome State Fault Refusal :=
  .next (s.skipIf (s.readV x == kk))

/-- `4xkk` SNE Vx, kk (41_control_flow.md R62). -/
def execSneVxKk (x : RegIdx) (kk : Byte) (s : State) : Host.Outcome State Fault Refusal :=
  .next (s.skipIf (s.readV x != kk))

/-- `5xy0` SE Vx, Vy (41_control_flow.md R63). -/
def execSeVxVy (x y : RegIdx) (s : State) : Host.Outcome State Fault Refusal :=
  .next (s.skipIf (s.readV x == s.readV y))

/-- `9xy0` SNE Vx, Vy (41_control_flow.md R64). -/
def execSneVxVy (x y : RegIdx) (s : State) : Host.Outcome State Fault Refusal :=
  .next (s.skipIf (s.readV x != s.readV y))

/-- `Bnnn` JP V0, addr (41_control_flow.md R65): only `V[0]` is added. -/
def execJpV0Addr (addr : Addr12) (s : State) : Host.Outcome State Fault Refusal :=
  .next (s.setPc (indexedTarget addr (s.readV 0)))

end Sys2Proof.Machine
end

