-- ==== Sys2Proof/Machine/Display.lean ====
section
/-!
DEFINITION. The framebuffer instructions (44_display.md).
-/

namespace Sys2Proof.Machine

/-- `00E0` CLS (44_display.md R87): `REDRAW` is set even when the screen was blank. -/
def execCls (s : State) : Host.Outcome State Fault Refusal :=
  .next (s.setScreen blankScreen).advance

/-- `Dxyn` DRW Vx, Vy, n (44_display.md R88): XOR the sprite at `I` into the framebuffer; `VF` is the collision. -/
def execDrwVxVyN (x y : RegIdx) (n : Fin 16) (s : State) : Host.Outcome State Fault Refusal :=
  let drawn := blit (spriteCells s.mem s.i (s.readV x) (s.readV y) n.val) s.fb false
  .next ((s.setScreen drawn.1).writeFlag (collisionFlag drawn.2)).advance

end Sys2Proof.Machine
end

