-- ==== Sys2Proof/Machine/IndexMemory.lean ====
section
/-!
DEFINITION. The index register and memory transfers (43_index_memory.md). Addresses wrap at access; `I` keeps 16 bits.
-/

namespace Sys2Proof.Machine

/-- `Annn` LD I, addr (43_index_memory.md R81). -/
def execLdIAddr (addr : Addr12) (s : State) : Host.Outcome State Fault Refusal :=
  .next (s.setI (zextAddr addr)).advance

/-- `Fx1E` ADD I, Vx (43_index_memory.md R82): `VF` says whether the sum passed 12 bits. -/
def execAddIVx (x : RegIdx) (s : State) : Host.Outcome State Fault Refusal :=
  .next ((s.setI (s.i + zextByte (s.readV x))).writeFlag (indexFlag s.i (s.readV x))).advance

/-- `Fx29` LD F, Vx (43_index_memory.md R83). -/
def execLdFVx (x : RegIdx) (s : State) : Host.Outcome State Fault Refusal :=
  .next (s.setI (glyphAddr (s.readV x))).advance

/-- `Fx33` LD B, Vx (43_index_memory.md R84): hundreds, tens, units; `I` is unchanged. -/
def execLdBVx (x : RegIdx) (s : State) : Host.Outcome State Fault Refusal :=
  .next (s.writeMemBytes (effAddr s.i 0)
    [bcdHundreds (s.readV x), bcdTens (s.readV x), bcdUnits (s.readV x)]).advance

/-- `Fx55` LD [I], Vx (43_index_memory.md R85): store `V[0..x]`, then `I += x + 1`. -/
def execLdMemIVx (x : RegIdx) (s : State) : Host.Outcome State Fault Refusal :=
  .next ((s.writeMemBytes (effAddr s.i 0) ((regsUpTo x).map s.readV)).setI
    (s.i + BitVec.ofNat 16 (x.val + 1))).advance

/-- `Fx65` LD Vx, [I] (43_index_memory.md R86): load `V[0..x]`, then `I += x + 1`. -/
def execLdVxMemI (x : RegIdx) (s : State) : Host.Outcome State Fault Refusal :=
  .next ((s.loadRegs (regsUpTo x)).setI (s.i + BitVec.ofNat 16 (x.val + 1))).advance

end Sys2Proof.Machine
end

