-- ==== Sys2Proof/Machine/KeysTimers.lean ====
section
/-!
DEFINITION. Key input and timer access (45_timers_input.md). The tick of the step comes after the execute phase
(60_exceptions.md R105), so a timer read here is the value before it.
-/

namespace Sys2Proof.Machine

/-- `Ex9E` SKP Vx (45_timers_input.md R91). -/
def execSkpVx (x : RegIdx) (s : State) : Host.Outcome State Fault Refusal :=
  match keyIndex (s.readV x) with
  | some k => .next (s.skipIf s.key[k])
  | none => .next (s.takeFault .keyIndexRange (encode (.skpVx x)))

/-- `ExA1` SKNP Vx (45_timers_input.md R92). -/
def execSknpVx (x : RegIdx) (s : State) : Host.Outcome State Fault Refusal :=
  match keyIndex (s.readV x) with
  | some k => .next (s.skipIf (!s.key[k]))
  | none => .next (s.takeFault .keyIndexRange (encode (.sknpVx x)))

/-- `Fx07` LD Vx, DT (45_timers_input.md R93). -/
def execLdVxDt (x : RegIdx) (s : State) : Host.Outcome State Fault Refusal :=
  .next (s.writeV x s.dt).advance

/-- `Fx0A` LD Vx, K (45_timers_input.md R94): with no key pressed nothing changes, `PC` included, and the next step
runs the instruction again. -/
def execLdVxK (x : RegIdx) (s : State) : Host.Outcome State Fault Refusal :=
  match highestKey s.key with
  | some k => .next (s.writeV x (keyByte k)).advance
  | none => .next s

/-- `Fx15` LD DT, Vx (45_timers_input.md R95). -/
def execLdDtVx (x : RegIdx) (s : State) : Host.Outcome State Fault Refusal :=
  .next (s.setDt (s.readV x)).advance

/-- `Fx18` LD ST, Vx (45_timers_input.md R96). -/
def execLdStVx (x : RegIdx) (s : State) : Host.Outcome State Fault Refusal :=
  .next (s.setSt (s.readV x)).advance

end Sys2Proof.Machine
end

