-- ==== Sys2Proof/Machine/Cycle.lean ====
section
/-!
DEFINITION. The step cycle (40_cycle.md R49): fetch, decode, execute, then the timer tick, for one random byte of the
host.
-/

namespace Sys2Proof.Machine

/-- The tick after the execute phase, which also runs after a faulting instruction (40_cycle.md R54). -/
def tickAfter : Host.Outcome State Fault Refusal → Host.Outcome State Fault Refusal
  | .next s => .next s.tick
  | .fault r => .fault r
  | .refused r => .refused r

/-- What a step does once its input is in place: only the tick while `FAULT` is set (40_cycle.md R55); else one
instruction, or the report of an `UNKNOWN` word (R53), and the tick. -/
def cycle (s : State) : Host.Outcome State Fault Refusal :=
  match s.fault with
  | some _ => .next s.tick
  | none =>
    match decode s.fetchWord with
    | .ok i => tickAfter (exec i s)
    | .error _ => .next (s.reportUnknown s.fetchWord).tick

/-- `step(rnd)` for a byte the host gives (40_cycle.md R49). -/
def stepWith (rnd : Byte) (s : State) : Host.Outcome State Fault Refusal := cycle (s.beginStep rnd)

/-- The next of the host's free bytes is taken: the later steps take the ones after it (60_exceptions.md R111;
log entry 1). -/
def State.takeRandom (s : State) : State := { s with rndIndex := s.rndIndex + 1 }

/-- Put the bytes of the table's word where the next step fetches, and clear `FAULT`, since a faulted core fetches
nothing (log entry 4). -/
def State.placeWord (s : State) (nbits w : Nat) : State :=
  { s.writeMemBytes s.pc.toNat (tableBytes nbits w) with fault := none }

end Sys2Proof.Machine
end

