-- ==== Sys2Proof/Machine/Step.lean ====
section
/-!
DEFINITION. One step of the machine. The definitions a step is made of stand in Machine/Cycle.lean and Machine/Ops.lean.
-/

namespace Sys2Proof.Machine

/-- One step (40_cycle.md R49), its random byte the next of the host's free bytes (60_exceptions.md R111). -/
def step (s : State) : Host.Outcome State Fault Refusal :=
  stepWith (Config.randomByte s.rndIndex) s.takeRandom

/-- The state with the instruction whose table bits are `w` stored where the next step fetches. -/
def State.withFetchWord (s : State) (nbits w : Nat) : State := s.placeWord nbits w

end Sys2Proof.Machine
end

