-- ==== Sys2Proof/Machine/HostOps.lean ====
section
/-!
DEFINITION. The host's operations on the core (60_exceptions.md R108): they happen only between steps (40_cycle.md R56),
so each is a function of the whole state, and there are no others.
-/

namespace Sys2Proof.Machine

/-- `Reset()` (70_reset_and_hazards.md R115). The host's generator is outside the core (10_state.md R25), so a Reset
does not rewind it: `rndIndex` stays (log entry 1). -/
def State.hostReset (s : State) : State := { State.reset with rndIndex := s.rndIndex }

/-- What `Load` answers (60_exceptions.md R108). -/
inductive LoadResult where
  | ok
  | tooLarge
  deriving DecidableEq, Repr

/-- `Load(image)` (70_reset_and_hazards.md R118): the length is checked first and an oversized image changes nothing;
else Reset, then the image's bytes from 0x200 on. -/
def State.hostLoad (s : State) (image : List Byte) : LoadResult × State :=
  if imageFits image then (.ok, s.hostReset.writeMemBytes Config.programBase image) else (.tooLarge, s)

/-- `SetKeys(k)`: the whole key state (60_exceptions.md R108, R109). -/
def State.setKeys (s : State) (key : Vector Bool 16) : State := { s with key := key }

/-- `ClearRedraw()` (60_exceptions.md R110). -/
def State.clearRedraw (s : State) : State := { s with redraw := false }

/-- The framebuffer as the host reads it: 2048 entries, row-major, entry `y*64 + x` (10_state.md R18,
60_exceptions.md R108). -/
def State.exportScreen (s : State) : List Bool := s.fb.toList.flatMap Vector.toList

/-- What the host reads between steps (60_exceptions.md R98, R107, R108), with the last step's event (R99). -/
structure Outputs where
  fb : List Bool
  redraw : Bool
  st : Byte
  dt : Byte
  fault : Option FaultRecord
  report : Option UnknownReport
  deriving DecidableEq, Repr

/-- Read the outputs; reading changes nothing (60_exceptions.md R108). -/
def State.outputs (s : State) : Outputs :=
  { fb := s.exportScreen, redraw := s.redraw, st := s.st, dt := s.dt, fault := s.fault, report := s.report }

/-- The moves of the host that can change the core (60_exceptions.md R108). -/
inductive HostMove where
  | reset
  | load (image : List Byte)
  | step (rnd : Byte)
  | setKeys (key : Vector Bool 16)
  | clearRedraw
  deriving DecidableEq, Repr

/-- The core after a move of the host. -/
def hostMove (m : HostMove) (s : State) : Host.Outcome State Fault Refusal :=
  match m with
  | .reset => .next s.hostReset
  | .load image => .next (s.hostLoad image).2
  | .step rnd => stepWith rnd s
  | .setKeys key => .next (s.setKeys key)
  | .clearRedraw => .next s.clearRedraw

end Sys2Proof.Machine
end

