-- ==== Sys2Proof/Safety.lean ====
section
/-!
DEFINITION. What claims say about a run: the waiting and faulted conditions, the invariant of the core, and the states
its host can bring it to.
-/

namespace Sys2Proof.Machine

/-- The pieces of state beside the general registers and `PC`, as a frame names them. -/
inductive Piece where
  | i
  | stack
  | dt
  | st
  | mem
  | screen
  | key
  | fault
  | random
  | report
  deriving DecidableEq, Repr

/-- The piece is in `t` as it is in `s`; memory is compared through the read of one byte, at every address. -/
def SamePiece (s t : State) : Piece → Prop
  | .i => t.i = s.i
  | .stack => t.sp = s.sp ∧ t.stack = s.stack
  | .dt => t.dt = s.dt
  | .st => t.st = s.st
  | .mem => ∀ a, t.readMem a = s.readMem a
  | .screen => t.fb = s.fb ∧ t.redraw = s.redraw
  | .key => t.key = s.key
  | .fault => t.fault = s.fault
  | .random => t.rnd = s.rnd ∧ t.rndIndex = s.rndIndex
  | .report => t.report = s.report

/-- Nothing but the listed registers, the listed pieces and `PC` differs between `s` and `t`. -/
def Frame (regs : List RegIdx) (pieces : List Piece) (s t : State) : Prop :=
  (∀ j, j ∉ regs → t.readV j = s.readV j) ∧ ∀ p, p ∉ pieces → SamePiece s t p

/-- Sprite position (`row`, `col`) of an `n`-row sprite at `I`, drawn from the corner `V[x]`, `V[y]`, is set and lands
on the pixel `FB[py][px]` (44_display.md R88, R89). -/
def SpriteCovers (s : State) (x y : RegIdx) (n : Nat) (py : Fin 32) (px : Fin 64) : Prop :=
  ∃ row col, row < n ∧ col < 8 ∧ ((s.readV y).toNat + row) % 32 = py.val ∧ ((s.readV x).toNat + col) % 64 = px.val ∧
    (s.readMem (effAddr s.i row)).getLsbD (7 - col) = true

/-- `WAITING` (10_state.md R25): not faulted, the word at `PC` is Fx0A and no key is pressed. -/
def State.Waiting (s : State) : Prop :=
  s.fault = none ∧ (∃ x, decode s.fetchWord = .ok (.ldVxK x)) ∧ ∀ k : Fin 16, s.key[k] = false

/-- What a fault record must say of the core it stopped (60_exceptions.md R97): the condition its cause names. -/
def State.CauseHolds (s : State) (r : FaultRecord) : Prop :=
  match r.cause with
  | .stackOverflow => s.sp.val = 16 ∧ ∃ addr, decode r.word = .ok (.callAddr addr)
  | .stackUnderflow => s.sp.val = 0 ∧ decode r.word = .ok .ret
  | .keyIndexRange =>
    ∃ x, (decode r.word = .ok (.skpVx x) ∨ decode r.word = .ok (.sknpVx x)) ∧ 15 < (s.readV x).toNat

/-- The fault record, if there is one, is true: `PC` is still at the instruction it names, memory still holds its word
there, and its cause's condition holds (10_state.md R21, 40_cycle.md R54, R55). -/
def State.FaultTruthful (s : State) : Prop :=
  ∀ r, s.fault = some r → r.pc = s.pc ∧ r.word = s.fetchWord ∧ s.CauseHolds r

/-- The invariant of the core: memory is in canonical form and the fault record is true. -/
def State.Inv (s : State) : Prop := s.mem.wf ∧ s.FaultTruthful

/-- The states the host can bring the core to: Reset, then any of its moves (60_exceptions.md R108,
70_reset_and_hazards.md R119). -/
inductive Reachable : State → Prop where
  | reset : Reachable State.reset
  | move (m : HostMove) (s t : State) : Reachable s → hostMove m s = .next t → Reachable t

end Sys2Proof.Machine
end

