-- ==== Sys2Proof/Certificates/Slice0/Obligations.lean ====
section
/-!
DEFINITION. The statements for the provers, from the numbered rules of spec/. Each docstring names the rule it
formalises. Instruction statements say which words the instruction is read from (its rule's Encoding line), what it
leaves, and its frame; their conclusion is that `exec` answers that next state.
-/

open Sys2Proof Sys2Proof.Machine

/-! ## Reset and the host -/

/-- 10_state.md R24, 70_reset_and_hazards.md R115: the values after a Reset from any state. -/
def Obligations.HostResetLeavesResetValues : Prop :=
  State.reset.hostReset = State.reset ∧
  ∀ s : State, ∀ t, t = s.hostReset →
    (∀ x, t.readV x = 0) ∧ t.i = 0 ∧ t.pc = 0x0200 ∧ t.sp.val = 0 ∧ (∀ j : Fin 16, t.stack[j] = 0) ∧
    t.dt = 0 ∧ t.st = 0 ∧
    (∀ a, a < 80 → some (t.readMem a) = Config.fontTable[a]?) ∧ (∀ a, 80 ≤ a → a < 4096 → t.readMem a = 0) ∧
    (∀ y x, t.pixel y x = false) ∧ (∀ k : Fin 16, t.key[k] = false) ∧ t.redraw = true ∧ t.fault = none

/-- 70_reset_and_hazards.md R118 (decision D20): an oversized image changes nothing; any other is copied to 0x200 on
after a Reset. -/
def Obligations.LoadCopiesTheImageAfterReset : Prop :=
  ∀ (s : State) (image : List Byte),
    (3584 < image.length → s.hostLoad image = (.tooLarge, s)) ∧
    (image.length ≤ 3584 → ∃ t, s.hostLoad image = (.ok, t) ∧
      (∀ k b, image[k]? = some b → t.readMem (0x200 + k) = b) ∧
      (∀ a, a < 4096 → (a < 0x200 ∨ 0x200 + image.length ≤ a) → t.readMem a = s.hostReset.readMem a) ∧
      t.pc = 0x0200 ∧ Frame [] [.mem] s.hostReset t)

/-- 10_state.md R18 and the export of 60_exceptions.md R108: entry `y*64 + x` of the 2048 is `FB[y][x]`. -/
def Obligations.HostReadsScreenRowMajor : Prop :=
  ∀ s : State, s.outputs.fb.length = 2048 ∧
    ∀ (y : Fin 32) (x : Fin 64), s.outputs.fb[y.val * 64 + x.val]? = some (s.pixel y x)

/-- 60_exceptions.md R109, R110: SetKeys replaces the key state, ClearRedraw clears `REDRAW`, and neither changes
anything else. -/
def Obligations.KeysAndRedrawMovesTouchNothingElse : Prop :=
  ∀ (s : State) (k : Vector Bool 16),
    (∃ t, hostMove (.setKeys k) s = .next t ∧ t.key = k ∧ t.pc = s.pc ∧ Frame [] [.key] s t) ∧
    (∃ t, hostMove .clearRedraw s = .next t ∧ t.redraw = false ∧ t.fb = s.fb ∧ t.pc = s.pc ∧ Frame [] [.screen] s t)

/-! ## Memory and fetch -/

/-- 20_memory.md R28: the two byte primitives, at any address taken modulo 4096. -/
def Obligations.MemoryReadsTheLastWrite : Prop :=
  ∀ (m : Memory) (a c : Nat) (b : Byte),
    (m.write a b).read c = (if c % 4096 = a % 4096 then b else m.read c) ∧ m.read (a % 4096) = m.read a

/-- The canonical form leaves one list for each memory: two canonical memories with the same bytes are the same
list. -/
def Obligations.CanonicalMemoryIsDeterminedByItsBytes : Prop :=
  ∀ m n : Memory, m.wf → n.wf → (∀ a, m.read a = n.read a) → m = n

/-- 30_encoding.md R40, 20_memory.md R31, R32: the fetched word, also at an odd `PC` and across 0xFFF. -/
def Obligations.FetchCombinesTwoBytesBigEndian : Prop :=
  ∀ s : State, s.fetchWord.toNat =
    (s.readMem (s.pc.toNat % 4096)).toNat * 256 + (s.readMem ((s.pc.toNat + 1) % 4096)).toNat

/-! ## Encoding -/

/-- Decoding what the encoder writes gives the instruction back, with every operand at every value. -/
def Obligations.DecodeOfEncodeIsTheInstruction : Prop :=
  ∀ i : Instr, decode (encode i) = .ok i

/-- 30_encoding.md R44, R46: no word is an alias: a word that decodes is the one its instruction encodes to. -/
def Obligations.EncodeOfDecodedWordIsTheWord : Prop :=
  ∀ (w : Word) (i : Instr), decode w = .ok i → encode i = w

/-- 30_encoding.md R46: the decoder's case tree accepts exactly the words of spec/opcode_table.json's rows, each as the
instruction of a row that admits it, and rejects every other word by name. -/
def Obligations.DecodeAcceptsExactlyTheTableRows : Prop :=
  ∀ w : Word,
    (isInstrWord w = true → ∃ i, decode w = .ok i ∧ i.row.admits w = true) ∧
    (isInstrWord w = false → decode w = .error (.unknown w))

/-- The list of 30_encoding.md R45, as ranges of the word's nibbles. -/
def Obligations.UnknownWordsAreTheListedRanges : Prop :=
  ∀ w : Word, decode w = .error (.unknown w) ↔
    (w.toNat < 0x1000 ∧ w.toNat ≠ 0x00E0 ∧ w.toNat ≠ 0x00EE) ∨
    (w.toNat / 0x1000 = 0x5 ∧ w.toNat % 16 ≠ 0) ∨
    (w.toNat / 0x1000 = 0x8 ∧ w.toNat % 16 ∈ [0x8, 0x9, 0xA, 0xB, 0xC, 0xD, 0xF]) ∨
    (w.toNat / 0x1000 = 0x9 ∧ w.toNat % 16 ≠ 0) ∨
    (w.toNat / 0x1000 = 0xE ∧ w.toNat % 256 ∉ [0x9E, 0xA1]) ∨
    (w.toNat / 0x1000 = 0xF ∧ w.toNat % 256 ∉ [0x07, 0x0A, 0x15, 0x18, 0x1E, 0x29, 0x33, 0x55, 0x65])

/-- Words of 95_test_vectors.md, read by hand from the formats of 30_encoding.md R42. -/
def Obligations.SampleWordsDecodeAsWritten : Prop :=
  decode 0x00EE = .ok .ret ∧ decode 0x1ABC = .ok (.jpAddr 0xABC) ∧ decode 0x3012 = .ok (.seVxKk 0 0x12) ∧
  decode 0x9120 = .ok (.sneVxVy 1 2) ∧ decode 0x8F15 = .ok (.subVxVy 0xF 1) ∧ decode 0xD122 = .ok (.drwVxVyN 1 2 2) ∧
  decode 0xE0A1 = .ok (.sknpVx 0) ∧ decode 0xF50A = .ok (.ldVxK 5) ∧ decode 0xF265 = .ok (.ldVxMemI 2) ∧
  decode 0x5121 = .error (.unknown 0x5121) ∧ decode 0x0123 = .error (.unknown 0x0123)

/-! ## The step cycle -/

/-- 40_cycle.md R49: when the core is not faulted and the word at `PC` decodes, a step is that instruction's execute
phase and the tick, on the state with the step's random byte in place; `step` takes the host's next free byte. -/
def Obligations.StepRunsTheDecodedInstruction : Prop :=
  ∀ (s : State) (i : Instr), s.fault = none → decode s.fetchWord = .ok i →
    (∀ rnd t, exec i (s.beginStep rnd) = .next t → stepWith rnd s = .next t.tick) ∧
    (∀ t, exec i (s.takeRandom.beginStep (Config.randomByte s.rndIndex)) = .next t → step s = .next t.tick)

/-- 40_cycle.md R57: "No instruction halts the core." Every step of every state answers a next state. -/
def Obligations.EveryStepAnswersANextState : Prop :=
  ∀ (s : State) (rnd : Byte), (∃ t, step s = .next t) ∧ ∃ t, stepWith rnd s = .next t

/-- 40_cycle.md R53 (decision D6): an `UNKNOWN` word is reported and skipped, and nothing else happens but the tick. -/
def Obligations.UnknownWordIsReportedAndSkipped : Prop :=
  ∀ s : State, s.fault = none → isInstrWord s.fetchWord = false →
    ∃ t, step s = .next t ∧ t.pc = s.pc + 2 ∧ t.report = some ⟨s.fetchWord, s.pc⟩ ∧
      t.dt.toNat = s.dt.toNat - 1 ∧ t.st.toNat = s.st.toNat - 1 ∧ Frame [] [.dt, .st, .random, .report] s t

/-- 40_cycle.md R55, 60_exceptions.md R102 (decision D2): while `FAULT` is set a step only ticks, and of the host's moves
only Reset leaves this state: `.reset`, and a `.load` whose image fits, since Load runs Reset. -/
def Obligations.FaultedCoreOnlyTicksUntilReset : Prop :=
  ∀ s : State, s.fault ≠ none →
    (∃ t, step s = .next t ∧ t.pc = s.pc ∧ t.report = none ∧
      t.dt.toNat = s.dt.toNat - 1 ∧ t.st.toNat = s.st.toNat - 1 ∧ Frame [] [.dt, .st, .random, .report] s t) ∧
    (∀ (m : HostMove) (t : State), hostMove m s = .next t → t.fault ≠ s.fault →
      t.fault = none ∧ (m = .reset ∨ ∃ image, m = .load image ∧ image.length ≤ 3584))

/-- 40_cycle.md R55, 60_exceptions.md R101, R102: over any number of steps a faulted core stays as it is, with only its
timers running out. -/
def Obligations.FaultedRunOnlyCountsTimersDown : Prop :=
  ∀ (n : Nat) (s : State), s.fault ≠ none →
    ∃ t, Host.Core.run Sys2Proof.core n s = .next t ∧ t.pc = s.pc ∧
      t.dt.toNat = s.dt.toNat - n ∧ t.st.toNat = s.st.toNat - n ∧ Frame [] [.dt, .st, .random, .report] s t

/-- 60_exceptions.md R97, 40_cycle.md R54 (decisions D2 to D5): which step faults, what it records, and that the
faulting instruction made none of its writes; that an `UNKNOWN` word is reported and no fault; and that no other step
faults. -/
def Obligations.FaultsFollowTheTableAndWriteNothing : Prop :=
  ∀ s t : State, s.fault = none → step s = .next t →
    (∀ addr, decode s.fetchWord = .ok (.callAddr addr) → s.sp.val = 16 →
      t.fault = some ⟨.stackOverflow, s.pc, s.fetchWord⟩) ∧
    (decode s.fetchWord = .ok .ret → s.sp.val = 0 → t.fault = some ⟨.stackUnderflow, s.pc, s.fetchWord⟩) ∧
    (∀ x, (decode s.fetchWord = .ok (.skpVx x) ∨ decode s.fetchWord = .ok (.sknpVx x)) → 0x0F < (s.readV x).toNat →
      t.fault = some ⟨.keyIndexRange, s.pc, s.fetchWord⟩) ∧
    (isInstrWord s.fetchWord = false → t.fault = none ∧ t.report = some ⟨s.fetchWord, s.pc⟩) ∧
    (t.fault ≠ none →
      ((∃ addr, decode s.fetchWord = .ok (.callAddr addr) ∧ s.sp.val = 16) ∨
       (decode s.fetchWord = .ok .ret ∧ s.sp.val = 0) ∨
       (∃ x, (decode s.fetchWord = .ok (.skpVx x) ∨ decode s.fetchWord = .ok (.sknpVx x)) ∧
         0x0F < (s.readV x).toNat)) ∧
      t.pc = s.pc ∧ t.dt.toNat = s.dt.toNat - 1 ∧ t.st.toNat = s.st.toNat - 1 ∧ t.report = none ∧
      Frame [] [.dt, .st, .fault, .random, .report] s t)

/-- 60_exceptions.md R99: a step emits the report exactly when it executes an `UNKNOWN` word, and keeps none of an
earlier step. -/
def Obligations.ReportComesFromThisStepOnly : Prop :=
  ∀ s t : State, step s = .next t → ∀ r, t.report = some r ↔
    s.fault = none ∧ isInstrWord s.fetchWord = false ∧ r = ⟨s.fetchWord, s.pc⟩

/-- 60_exceptions.md R105: the tick at the end of every step, whatever the step did; a timer that Fx15 or Fx18 writes
is ticked in the same step. -/
def Obligations.EveryStepTicksBothTimers : Prop :=
  ∀ s t : State, step s = .next t →
    (∀ x, s.fault = none → decode s.fetchWord = .ok (.ldDtVx x) → t.dt.toNat = (s.readV x).toNat - 1) ∧
    ((∀ x, ¬(s.fault = none ∧ decode s.fetchWord = .ok (.ldDtVx x))) → t.dt.toNat = s.dt.toNat - 1) ∧
    (∀ x, s.fault = none → decode s.fetchWord = .ok (.ldStVx x) → t.st.toNat = (s.readV x).toNat - 1) ∧
    ((∀ x, ¬(s.fault = none ∧ decode s.fetchWord = .ok (.ldStVx x))) → t.st.toNat = s.st.toNat - 1)

/-- The document's timer property with the premise of 90_conflicts.md C7: over `n` steps that run no Fx15 the delay
timer goes from `D` to `max(0, D−n)`, whatever else they run. -/
def Obligations.DelayTimerCountsStepsWithoutFx15 : Prop :=
  ∀ (n : Nat) (s : State),
    (∀ k t x, k < n → Host.Core.run Sys2Proof.core k s = .next t → t.fault = none →
      decode t.fetchWord ≠ .ok (.ldDtVx x)) →
    ∃ t, Host.Core.run Sys2Proof.core n s = .next t ∧ t.dt.toNat = s.dt.toNat - n

/-- 10_state.md R25, 45_timers_input.md R94, 70_reset_and_hazards.md R122: a core that waits for a key stays at its
Fx0A over any number of steps while the host presses none, and its timers keep counting. -/
def Obligations.WaitingCoreOnlyCountsTimersDown : Prop :=
  ∀ (n : Nat) (s : State), s.Waiting →
    ∃ t, Host.Core.run Sys2Proof.core n s = .next t ∧ t.Waiting ∧ t.pc = s.pc ∧
      t.dt.toNat = s.dt.toNat - n ∧ t.st.toNat = s.st.toNat - n ∧ Frame [] [.dt, .st, .random, .report] s t

/-! ## Rules over all instructions -/

/-- 10_state.md R18, R20: only CLS and DRW change the framebuffer or `REDRAW`, and a step that executes one of them
leaves `REDRAW` set. -/
def Obligations.OnlyClsAndDrwChangeTheScreen : Prop :=
  ∀ s t : State, step s = .next t →
    ((t.fb ≠ s.fb ∨ t.redraw ≠ s.redraw) → s.fault = none ∧
      (decode s.fetchWord = .ok .cls ∨ ∃ x y n, decode s.fetchWord = .ok (.drwVxVyN x y n))) ∧
    (s.fault = none →
      (decode s.fetchWord = .ok .cls ∨ ∃ x y n, decode s.fetchWord = .ok (.drwVxVyN x y n)) → t.redraw = true)

/-- 10_state.md R14: only CALL and RET change the stack or `SP`, and RET no entry of the stack. -/
def Obligations.OnlyCallAndRetTouchTheStack : Prop :=
  ∀ s t : State, step s = .next t →
    ((t.sp ≠ s.sp ∨ t.stack ≠ s.stack) → s.fault = none ∧
      (decode s.fetchWord = .ok .ret ∨ ∃ addr, decode s.fetchWord = .ok (.callAddr addr))) ∧
    (t.stack ≠ s.stack → ∃ addr, decode s.fetchWord = .ok (.callAddr addr))

/-- 20_memory.md R26: only Fx33 and Fx55 change memory. -/
def Obligations.OnlyFx33AndFx55WriteMemory : Prop :=
  ∀ (s t : State) (a : Nat), step s = .next t → t.readMem a ≠ s.readMem a →
    s.fault = none ∧ ∃ x, decode s.fetchWord = .ok (.ldBVx x) ∨ decode s.fetchWord = .ok (.ldMemIVx x)

/-- 42_alu.md R80: an instruction outside the flag table changes `VF` only if `VF` is its named destination. -/
def Obligations.FlagRegisterChangesOnlyAsListed : Prop :=
  ∀ (i : Instr) (s t : State), exec i s = .next t → t.readV 15 ≠ s.readV 15 →
    (∃ x y, i = .addVxVy x y ∨ i = .subVxVy x y ∨ i = .shrVx x y ∨ i = .subnVxVy x y ∨ i = .shlVx x y) ∨
    (∃ x, i = .addIVx x) ∨ (∃ x y n, i = .drwVxVyN x y n) ∨
    (∃ kk, i = .ldVxKk 15 kk ∨ i = .addVxKk 15 kk ∨ i = .rndVxKk 15 kk) ∨
    (∃ y, i = .ldVxVy 15 y ∨ i = .orVxVy 15 y ∨ i = .andVxVy 15 y ∨ i = .xorVxVy 15 y) ∨
    i = .ldVxDt 15 ∨ i = .ldVxK 15 ∨ i = .ldVxMemI 15

/-- 60_exceptions.md R109, 10_state.md R19: no step changes the key state. -/
def Obligations.NoStepChangesTheKeys : Prop :=
  ∀ s t : State, step s = .next t → t.key = s.key

/-! ## The invariant -/

/-- The invariant holds after Reset. -/
def Obligations.InvariantHoldsAtReset : Prop := State.reset.Inv

/-- From every state with a canonical memory and a true fault record, a step gives such a state: a record that a step
writes names the core's `PC`, the word that stands there and the condition of 60_exceptions.md R97, and later steps keep
all three. -/
def Obligations.EveryStepKeepsTheInvariant : Prop :=
  ∀ s t : State, s.Inv → step s = .next t → t.Inv

/-- Every state the host can bring the core to, by any sequence of its moves and any random bytes, has the
invariant. The order of the moves is the model's choice (log entry 7): Load may come between any two steps, where
20_memory.md R35 has it before the first step only. -/
def Obligations.ReachableStatesHaveTheInvariant : Prop :=
  ∀ s : State, Reachable s → s.Inv

/-! ## Control flow -/

/-- 41_control_flow.md R58. -/
def Obligations.ReturnLandsTwoPastThePoppedAddress : Prop :=
  decode 0x00EE = .ok .ret ∧
  ∀ s : State,
    (∀ h : 0 < s.sp.val, ∃ t, exec .ret s = .next t ∧ t.sp.val = s.sp.val - 1 ∧
      t.pc = s.stack[s.sp.val - 1] + 2 ∧ t.stack = s.stack ∧ Frame [] [.stack] s t) ∧
    (s.sp.val = 0 → ∃ t, exec .ret s = .next t ∧ t.fault = some ⟨.stackUnderflow, s.pc, 0x00EE⟩ ∧
      t.pc = s.pc ∧ Frame [] [.fault] s t)

/-- 41_control_flow.md R59, R65. -/
def Obligations.JumpsSetTheProgramCounter : Prop :=
  ∀ (addr : Addr12) (s : State),
    (decode (BitVec.ofNat 16 (0x1000 + addr.toNat)) = .ok (.jpAddr addr) ∧
      ∃ t, exec (.jpAddr addr) s = .next t ∧ t.pc.toNat = addr.toNat ∧ Frame [] [] s t) ∧
    (decode (BitVec.ofNat 16 (0xB000 + addr.toNat)) = .ok (.jpV0Addr addr) ∧
      ∃ t, exec (.jpV0Addr addr) s = .next t ∧ t.pc.toNat = addr.toNat + (s.readV 0).toNat ∧ Frame [] [] s t)

/-- 41_control_flow.md R60. -/
def Obligations.CallPushesItsOwnAddress : Prop :=
  ∀ (addr : Addr12) (s : State),
    decode (BitVec.ofNat 16 (0x2000 + addr.toNat)) = .ok (.callAddr addr) ∧
    (∀ h : s.sp.val < 16, ∃ t, exec (.callAddr addr) s = .next t ∧ t.stack[s.sp.val] = s.pc ∧
      (∀ j : Fin 16, j.val ≠ s.sp.val → t.stack[j] = s.stack[j]) ∧ t.sp.val = s.sp.val + 1 ∧
      t.pc.toNat = addr.toNat ∧ Frame [] [.stack] s t) ∧
    (s.sp.val = 16 → ∃ t, exec (.callAddr addr) s = .next t ∧
      t.fault = some ⟨.stackOverflow, s.pc, BitVec.ofNat 16 (0x2000 + addr.toNat)⟩ ∧
      t.pc = s.pc ∧ Frame [] [.fault] s t)

/-- 41_control_flow.md R61, R62. -/
def Obligations.ImmediateSkipsCompareAndSkip : Prop :=
  ∀ (x : RegIdx) (kk : Byte) (s : State),
    (decode (BitVec.ofNat 16 (0x3000 + 256 * x.val + kk.toNat)) = .ok (.seVxKk x kk) ∧
      ∃ t, exec (.seVxKk x kk) s = .next t ∧
        t.pc = (if s.readV x = kk then s.pc + 4 else s.pc + 2) ∧ Frame [] [] s t) ∧
    (decode (BitVec.ofNat 16 (0x4000 + 256 * x.val + kk.toNat)) = .ok (.sneVxKk x kk) ∧
      ∃ t, exec (.sneVxKk x kk) s = .next t ∧
        t.pc = (if s.readV x ≠ kk then s.pc + 4 else s.pc + 2) ∧ Frame [] [] s t)

/-- 41_control_flow.md R63, R64; a nonzero low nibble is `UNKNOWN`. -/
def Obligations.RegisterSkipsCompareAndSkip : Prop :=
  ∀ (x y : RegIdx) (s : State),
    (decode (BitVec.ofNat 16 (0x5000 + 256 * x.val + 16 * y.val)) = .ok (.seVxVy x y) ∧
      ∃ t, exec (.seVxVy x y) s = .next t ∧
        t.pc = (if s.readV x = s.readV y then s.pc + 4 else s.pc + 2) ∧ Frame [] [] s t) ∧
    (decode (BitVec.ofNat 16 (0x9000 + 256 * x.val + 16 * y.val)) = .ok (.sneVxVy x y) ∧
      ∃ t, exec (.sneVxVy x y) s = .next t ∧
        t.pc = (if s.readV x ≠ s.readV y then s.pc + 4 else s.pc + 2) ∧ Frame [] [] s t) ∧
    (∀ n : Fin 16, n ≠ 0 →
      isInstrWord (BitVec.ofNat 16 (0x5000 + 256 * x.val + 16 * y.val + n.val)) = false ∧
      isInstrWord (BitVec.ofNat 16 (0x9000 + 256 * x.val + 16 * y.val + n.val)) = false)

/-- The document's testable property of CALL and RET (95_test_vectors.md S5), from every state with room on the
stack. -/
def Obligations.CallThenReturnComesBack : Prop :=
  ∀ (addr : Addr12) (s : State), s.sp.val < 16 →
    ∃ t u, exec (.callAddr addr) s = .next t ∧ exec .ret t = .next u ∧ u.pc = s.pc + 2 ∧ u.sp = s.sp

/-! ## Register loads and the arithmetic-logic unit -/

/-- 42_alu.md R67, R69. -/
def Obligations.LoadsSetTheRegister : Prop :=
  ∀ (x y : RegIdx) (kk : Byte) (s : State),
    (decode (BitVec.ofNat 16 (0x6000 + 256 * x.val + kk.toNat)) = .ok (.ldVxKk x kk) ∧
      ∃ t, exec (.ldVxKk x kk) s = .next t ∧ t.readV x = kk ∧ t.pc = s.pc + 2 ∧ Frame [x] [] s t) ∧
    (decode (BitVec.ofNat 16 (0x8000 + 256 * x.val + 16 * y.val)) = .ok (.ldVxVy x y) ∧
      ∃ t, exec (.ldVxVy x y) s = .next t ∧ t.readV x = s.readV y ∧ t.pc = s.pc + 2 ∧ Frame [x] [] s t)

/-- 42_alu.md R68: no flag, also on wraparound. -/
def Obligations.AddImmediateWrapsWithoutFlag : Prop :=
  ∀ (x : RegIdx) (kk : Byte) (s : State),
    decode (BitVec.ofNat 16 (0x7000 + 256 * x.val + kk.toNat)) = .ok (.addVxKk x kk) ∧
    ∃ t, exec (.addVxKk x kk) s = .next t ∧ (t.readV x).toNat = ((s.readV x).toNat + kk.toNat) % 256 ∧
      t.pc = s.pc + 2 ∧ Frame [x] [] s t

/-- 42_alu.md R70, R71, R72: bit by bit, and no flag. -/
def Obligations.LogicCombinesBitsWithoutFlag : Prop :=
  ∀ (x y : RegIdx) (s : State),
    (decode (BitVec.ofNat 16 (0x8001 + 256 * x.val + 16 * y.val)) = .ok (.orVxVy x y) ∧
      ∃ t, exec (.orVxVy x y) s = .next t ∧
        (∀ b, (t.readV x).getLsbD b = ((s.readV x).getLsbD b || (s.readV y).getLsbD b)) ∧
        t.pc = s.pc + 2 ∧ Frame [x] [] s t) ∧
    (decode (BitVec.ofNat 16 (0x8002 + 256 * x.val + 16 * y.val)) = .ok (.andVxVy x y) ∧
      ∃ t, exec (.andVxVy x y) s = .next t ∧
        (∀ b, (t.readV x).getLsbD b = ((s.readV x).getLsbD b && (s.readV y).getLsbD b)) ∧
        t.pc = s.pc + 2 ∧ Frame [x] [] s t) ∧
    (decode (BitVec.ofNat 16 (0x8003 + 256 * x.val + 16 * y.val)) = .ok (.xorVxVy x y) ∧
      ∃ t, exec (.xorVxVy x y) s = .next t ∧
        (∀ b, (t.readV x).getLsbD b = ((s.readV x).getLsbD b != (s.readV y).getLsbD b)) ∧
        t.pc = s.pc + 2 ∧ Frame [x] [] s t)

/-- 42_alu.md R73: the carry is what `VF` holds, also when `VF` is the destination. -/
def Obligations.AddLeavesSumAndCarry : Prop :=
  ∀ (x y : RegIdx) (s : State),
    decode (BitVec.ofNat 16 (0x8004 + 256 * x.val + 16 * y.val)) = .ok (.addVxVy x y) ∧
    ∃ t, exec (.addVxVy x y) s = .next t ∧
      (x ≠ 15 → (t.readV x).toNat = ((s.readV x).toNat + (s.readV y).toNat) % 256) ∧
      t.readV 15 = (if (s.readV x).toNat + (s.readV y).toNat > 255 then 1 else 0) ∧
      t.pc = s.pc + 2 ∧ Frame [x, 15] [] s t

/-- 42_alu.md R74, R76: the difference modulo 256, and `VF` 0 on a borrow. -/
def Obligations.SubtractsLeaveDifferenceAndNotBorrow : Prop :=
  ∀ (x y : RegIdx) (s : State),
    (decode (BitVec.ofNat 16 (0x8005 + 256 * x.val + 16 * y.val)) = .ok (.subVxVy x y) ∧
      ∃ t, exec (.subVxVy x y) s = .next t ∧
        (x ≠ 15 → (t.readV x).toNat = ((s.readV x).toNat + 256 - (s.readV y).toNat) % 256) ∧
        t.readV 15 = (if (s.readV y).toNat > (s.readV x).toNat then 0 else 1) ∧
        t.pc = s.pc + 2 ∧ Frame [x, 15] [] s t) ∧
    (decode (BitVec.ofNat 16 (0x8007 + 256 * x.val + 16 * y.val)) = .ok (.subnVxVy x y) ∧
      ∃ t, exec (.subnVxVy x y) s = .next t ∧
        (x ≠ 15 → (t.readV x).toNat = ((s.readV y).toNat + 256 - (s.readV x).toNat) % 256) ∧
        t.readV 15 = (if (s.readV x).toNat > (s.readV y).toNat then 0 else 1) ∧
        t.pc = s.pc + 2 ∧ Frame [x, 15] [] s t)

/-- 42_alu.md R75, R77: one bit, filled with 0; `VF` is the bit shifted out; the `y` field has no effect. -/
def Obligations.ShiftsLeaveTheBitShiftedOut : Prop :=
  ∀ (x y : RegIdx) (s : State),
    (decode (BitVec.ofNat 16 (0x8006 + 256 * x.val + 16 * y.val)) = .ok (.shrVx x y) ∧
      ∃ t, exec (.shrVx x y) s = .next t ∧ (x ≠ 15 → (t.readV x).toNat = (s.readV x).toNat / 2) ∧
        (t.readV 15).toNat = (s.readV x).toNat % 2 ∧ t.pc = s.pc + 2 ∧ Frame [x, 15] [] s t) ∧
    (decode (BitVec.ofNat 16 (0x800E + 256 * x.val + 16 * y.val)) = .ok (.shlVx x y) ∧
      ∃ t, exec (.shlVx x y) s = .next t ∧ (x ≠ 15 → (t.readV x).toNat = (s.readV x).toNat * 2 % 256) ∧
        (t.readV 15).toNat = (s.readV x).toNat / 128 ∧ t.pc = s.pc + 2 ∧ Frame [x, 15] [] s t)

/-- 42_alu.md R78, 60_exceptions.md R111: the step's random byte, masked, for every value of that byte. -/
def Obligations.RandomByteIsMasked : Prop :=
  ∀ (x : RegIdx) (kk : Byte) (s : State),
    decode (BitVec.ofNat 16 (0xC000 + 256 * x.val + kk.toNat)) = .ok (.rndVxKk x kk) ∧
    (∃ t, exec (.rndVxKk x kk) s = .next t ∧
      (∀ b, (t.readV x).getLsbD b = (s.rnd.getLsbD b && kk.getLsbD b)) ∧ t.pc = s.pc + 2 ∧ Frame [x] [] s t) ∧
    (s.fault = none → decode s.fetchWord = .ok (.rndVxKk x kk) →
      ∀ rnd, ∃ t, stepWith rnd s = .next t ∧ ∀ b, (t.readV x).getLsbD b = (rnd.getLsbD b && kk.getLsbD b))

/-! ## Index register and memory -/

/-- 43_index_memory.md R81, R83. -/
def Obligations.IndexLoadsSetI : Prop :=
  ∀ (addr : Addr12) (x : RegIdx) (s : State),
    (decode (BitVec.ofNat 16 (0xA000 + addr.toNat)) = .ok (.ldIAddr addr) ∧
      ∃ t, exec (.ldIAddr addr) s = .next t ∧ t.i.toNat = addr.toNat ∧ t.pc = s.pc + 2 ∧ Frame [] [.i] s t) ∧
    (decode (BitVec.ofNat 16 (0xF029 + 256 * x.val)) = .ok (.ldFVx x) ∧
      ∃ t, exec (.ldFVx x) s = .next t ∧ t.i.toNat = (s.readV x).toNat * 5 ∧ t.pc = s.pc + 2 ∧ Frame [] [.i] s t)

/-- 43_index_memory.md R82 (decision D10): 16 bits, and the flag of the unwrapped sum. -/
def Obligations.AddToIndexFlagsPast12Bits : Prop :=
  ∀ (x : RegIdx) (s : State),
    decode (BitVec.ofNat 16 (0xF01E + 256 * x.val)) = .ok (.addIVx x) ∧
    ∃ t, exec (.addIVx x) s = .next t ∧ t.i.toNat = (s.i.toNat + (s.readV x).toNat) % 65536 ∧
      t.readV 15 = (if s.i.toNat + (s.readV x).toNat > 0x0FFF then 1 else 0) ∧
      t.pc = s.pc + 2 ∧ Frame [15] [.i] s t

/-- 43_index_memory.md R84: the three digits, and no other byte. -/
def Obligations.DecimalDigitsAreStoredAtI : Prop :=
  ∀ (x : RegIdx) (s : State),
    decode (BitVec.ofNat 16 (0xF033 + 256 * x.val)) = .ok (.ldBVx x) ∧
    ∃ t, exec (.ldBVx x) s = .next t ∧
      (t.readMem (effAddr s.i 0)).toNat = (s.readV x).toNat / 100 ∧
      (t.readMem (effAddr s.i 1)).toNat = (s.readV x).toNat / 10 % 10 ∧
      (t.readMem (effAddr s.i 2)).toNat = (s.readV x).toNat % 10 ∧
      (∀ a, (∀ k, k < 3 → a % 4096 ≠ effAddr s.i k % 4096) → t.readMem a = s.readMem a) ∧
      t.pc = s.pc + 2 ∧ Frame [] [.mem] s t

/-- 43_index_memory.md R85: `V[0..x]` to memory at `I`, and no other byte. -/
def Obligations.RegistersAreStoredAtI : Prop :=
  ∀ (x : RegIdx) (s : State),
    decode (BitVec.ofNat 16 (0xF055 + 256 * x.val)) = .ok (.ldMemIVx x) ∧
    ∃ t, exec (.ldMemIVx x) s = .next t ∧
      (∀ k : RegIdx, k.val ≤ x.val → t.readMem (effAddr s.i k.val) = s.readV k) ∧
      (∀ a, (∀ k, k ≤ x.val → a % 4096 ≠ effAddr s.i k % 4096) → t.readMem a = s.readMem a) ∧
      t.i.toNat = (s.i.toNat + x.val + 1) % 65536 ∧ t.pc = s.pc + 2 ∧ Frame [] [.i, .mem] s t

/-- 43_index_memory.md R86: `V[0..x]` from memory at `I`; the registers above keep their values. -/
def Obligations.RegistersAreLoadedFromI : Prop :=
  ∀ (x : RegIdx) (s : State),
    decode (BitVec.ofNat 16 (0xF065 + 256 * x.val)) = .ok (.ldVxMemI x) ∧
    ∃ t, exec (.ldVxMemI x) s = .next t ∧
      (∀ k : RegIdx, k.val ≤ x.val → t.readV k = s.readMem (effAddr s.i k.val)) ∧
      (∀ k : RegIdx, x.val < k.val → t.readV k = s.readV k) ∧
      t.i.toNat = (s.i.toNat + x.val + 1) % 65536 ∧ t.pc = s.pc + 2 ∧ Frame allIdx [.i] s t

/-- The document's round trip (95_test_vectors.md S7): Fx55, `I` set back, any values put into the registers, Fx65 with
the same `x`. -/
def Obligations.StoreThenLoadIsARoundTrip : Prop :=
  ∀ (x : RegIdx) (s : State) (other : Vector Byte 16),
    ∃ t u, exec (.ldMemIVx x) s = .next t ∧ exec (.ldVxMemI x) { t with i := s.i, v := other } = .next u ∧
      (∀ k : RegIdx, k.val ≤ x.val → u.readV k = s.readV k) ∧ t.i = u.i ∧ u.i.toNat = (s.i.toNat + x.val + 1) % 65536

/-- 20_memory.md R38: the bytes that Fx55 stores are what a later fetch from them reads, with nothing in between. -/
def Obligations.StoredBytesAreFetchedAsAnInstruction : Prop :=
  ∀ (x : RegIdx) (s : State), 0 < x.val →
    ∃ t, exec (.ldMemIVx x) s = .next t ∧
      ∀ pc : Word, pc.toNat % 4096 = s.i.toNat % 4096 →
        ({ t with pc := pc }).fetchWord.toNat = (s.readV 0).toNat * 256 + (s.readV 1).toNat

/-! ## Display -/

/-- 44_display.md R87. -/
def Obligations.ClsBlanksTheScreen : Prop :=
  decode 0x00E0 = .ok .cls ∧
  ∀ s : State, ∃ t, exec .cls s = .next t ∧ (∀ y x, t.pixel y x = false) ∧ t.redraw = true ∧
    t.pc = s.pc + 2 ∧ Frame [] [.screen] s t

/-- 44_display.md R88: pixel by pixel, what the blit leaves. `SpriteCovers` takes bit 7 as the leftmost column, which
44_display.md R89 marks as general knowledge (decision D12, log entry 6). -/
def Obligations.DrawFlipsExactlyTheCoveredPixels : Prop :=
  ∀ (x y : RegIdx) (n : Fin 16) (s : State),
    decode (BitVec.ofNat 16 (0xD000 + 256 * x.val + 16 * y.val + n.val)) = .ok (.drwVxVyN x y n) ∧
    ∃ t, exec (.drwVxVyN x y n) s = .next t ∧
      (∀ py px, SpriteCovers s x y n.val py px → t.pixel py px = !s.pixel py px) ∧
      (∀ py px, ¬SpriteCovers s x y n.val py px → t.pixel py px = s.pixel py px) ∧
      ((∃ py px, SpriteCovers s x y n.val py px ∧ s.pixel py px = true) → t.readV 15 = 1) ∧
      ((∀ py px, SpriteCovers s x y n.val py px → s.pixel py px = false) → t.readV 15 = 0) ∧
      t.redraw = true ∧ t.pc = s.pc + 2 ∧ Frame [15] [.screen] s t

/-- The document's testable property of a sprite drawn twice (95_test_vectors.md S6), for any sprite and screen: the
screen comes back. `VF` is no coordinate, since the first draw overwrites it. -/
def Obligations.DrawingTwiceRestoresTheScreen : Prop :=
  ∀ (x y : RegIdx) (n : Fin 16) (s : State), x ≠ 15 → y ≠ 15 →
    ∃ t u, exec (.drwVxVyN x y n) s = .next t ∧ exec (.drwVxVyN x y n) t = .next u ∧ u.fb = s.fb

/-! ## Keys and timers -/

/-- 45_timers_input.md R91, R92. -/
def Obligations.KeySkipsReadTheKeyOrFault : Prop :=
  ∀ (x : RegIdx) (s : State),
    (decode (BitVec.ofNat 16 (0xE09E + 256 * x.val)) = .ok (.skpVx x) ∧
      (∀ h : (s.readV x).toNat ≤ 0xF, ∃ t, exec (.skpVx x) s = .next t ∧
        t.pc = (if s.key[(s.readV x).toNat] = true then s.pc + 4 else s.pc + 2) ∧ Frame [] [] s t) ∧
      ((s.readV x).toNat > 0xF → ∃ t, exec (.skpVx x) s = .next t ∧
        t.fault = some ⟨.keyIndexRange, s.pc, BitVec.ofNat 16 (0xE09E + 256 * x.val)⟩ ∧
        t.pc = s.pc ∧ Frame [] [.fault] s t)) ∧
    (decode (BitVec.ofNat 16 (0xE0A1 + 256 * x.val)) = .ok (.sknpVx x) ∧
      (∀ h : (s.readV x).toNat ≤ 0xF, ∃ t, exec (.sknpVx x) s = .next t ∧
        t.pc = (if s.key[(s.readV x).toNat] = false then s.pc + 4 else s.pc + 2) ∧ Frame [] [] s t) ∧
      ((s.readV x).toNat > 0xF → ∃ t, exec (.sknpVx x) s = .next t ∧
        t.fault = some ⟨.keyIndexRange, s.pc, BitVec.ofNat 16 (0xE0A1 + 256 * x.val)⟩ ∧
        t.pc = s.pc ∧ Frame [] [.fault] s t))

/-- 45_timers_input.md R93: the value before the step's tick. -/
def Obligations.DelayTimerIsReadBeforeTheTick : Prop :=
  ∀ (x : RegIdx) (s : State),
    decode (BitVec.ofNat 16 (0xF007 + 256 * x.val)) = .ok (.ldVxDt x) ∧
    (∃ t, exec (.ldVxDt x) s = .next t ∧ t.readV x = s.dt ∧ t.pc = s.pc + 2 ∧ Frame [x] [] s t) ∧
    (s.fault = none → decode s.fetchWord = .ok (.ldVxDt x) →
      ∃ t, step s = .next t ∧ t.readV x = s.dt ∧ t.dt.toNat = s.dt.toNat - 1)

/-- 45_timers_input.md R94: the highest pressed key, or nothing at all, `PC` included. -/
def Obligations.KeyWaitTakesTheHighestPressedKey : Prop :=
  ∀ (x : RegIdx) (s : State),
    decode (BitVec.ofNat 16 (0xF00A + 256 * x.val)) = .ok (.ldVxK x) ∧
    (∀ k : Fin 16, s.key[k] = true → (∀ j : Fin 16, k < j → s.key[j] = false) →
      ∃ t, exec (.ldVxK x) s = .next t ∧ (t.readV x).toNat = k.val ∧ t.pc = s.pc + 2 ∧ Frame [x] [] s t) ∧
    ((∀ k : Fin 16, s.key[k] = false) →
      ∃ t, exec (.ldVxK x) s = .next t ∧ t.pc = s.pc ∧ Frame [] [] s t)

/-- 45_timers_input.md R95, R96: the timer is written, and the tick of the same step lowers it if nonzero. -/
def Obligations.TimerWritesAreTickedInTheSameStep : Prop :=
  ∀ (x : RegIdx) (s : State),
    (decode (BitVec.ofNat 16 (0xF015 + 256 * x.val)) = .ok (.ldDtVx x) ∧
      (∃ t, exec (.ldDtVx x) s = .next t ∧ t.dt = s.readV x ∧ t.pc = s.pc + 2 ∧ Frame [] [.dt] s t) ∧
      (s.fault = none → decode s.fetchWord = .ok (.ldDtVx x) →
        ∃ t, step s = .next t ∧ t.dt.toNat = (s.readV x).toNat - 1)) ∧
    (decode (BitVec.ofNat 16 (0xF018 + 256 * x.val)) = .ok (.ldStVx x) ∧
      (∃ t, exec (.ldStVx x) s = .next t ∧ t.st = s.readV x ∧ t.pc = s.pc + 2 ∧ Frame [] [.st] s t) ∧
      (s.fault = none → decode s.fetchWord = .ok (.ldStVx x) →
        ∃ t, step s = .next t ∧ t.st.toNat = (s.readV x).toNat - 1))
end

