-- ==== Sys2Proof/Laws/Encoding.lean ====
section
/-!
SUPPORT. The fields of a word and the formats as numbers, and the word each format writes.
-/

namespace Sys2Proof

/-! ## Fields as numbers (30_encoding.md R41) -/

theorem fieldOp_val (w : Word) : (fieldOp w).val = w.toNat / 4096 := by
  have := w.isLt
  simp [fieldOp, BitVec.extractLsb', Nat.shiftRight_eq_div_pow]; omega

theorem fieldX_val (w : Word) : (fieldX w).val = w.toNat / 256 % 16 := by
  simp [fieldX, BitVec.extractLsb', Nat.shiftRight_eq_div_pow]

theorem fieldY_val (w : Word) : (fieldY w).val = w.toNat / 16 % 16 := by
  simp [fieldY, BitVec.extractLsb', Nat.shiftRight_eq_div_pow]

theorem fieldN_val (w : Word) : (fieldN w).val = w.toNat % 16 := by
  simp [fieldN, BitVec.extractLsb']

theorem fieldKk_toNat (w : Word) : (fieldKk w).toNat = w.toNat % 256 := by
  simp [fieldKk, BitVec.extractLsb']

theorem fieldAddr_toNat (w : Word) : (fieldAddr w).toNat = w.toNat % 4096 := by
  simp [fieldAddr, BitVec.extractLsb']

/-! ## Bytes of a word (20_memory.md R31) -/

theorem append_toNat {m n : Nat} (a : BitVec m) (b : BitVec n) : (a ++ b).toNat = a.toNat * 2 ^ n + b.toNat := by
  rw [BitVec.toNat_append, ← Nat.shiftLeft_add_eq_or_of_lt b.isLt, Nat.shiftLeft_eq]

theorem joinBytes_toNat (hi lo : Byte) : (joinBytes hi lo).toNat = hi.toNat * 256 + lo.toNat :=
  append_toNat hi lo

theorem highByte_toNat (w : Word) : (highByte w).toNat = w.toNat / 256 := by
  have := w.isLt
  simp [highByte, BitVec.extractLsb', Nat.shiftRight_eq_div_pow]; omega

theorem lowByte_toNat (w : Word) : (lowByte w).toNat = w.toNat % 256 := by
  simp [lowByte, BitVec.extractLsb']

/-- A word is its two bytes joined. -/
theorem joinBytes_highByte_lowByte (w : Word) : joinBytes (highByte w) (lowByte w) = w := by
  apply BitVec.eq_of_toNat_eq
  rw [joinBytes_toNat, highByte_toNat, lowByte_toNat]; omega

/-! ## Formats as numbers (30_encoding.md R42) -/

theorem formatA_toNat (op : BitVec 4) (addr : Addr12) :
    (formatA op addr).toNat = op.toNat * 4096 + addr.toNat := append_toNat op addr

theorem formatXK_toNat (op : BitVec 4) (x : RegIdx) (kk : Byte) :
    (formatXK op x kk).toNat = op.toNat * 4096 + x.val * 256 + kk.toNat := by
  have h : (formatXK op x kk).toNat = (op ++ (BitVec.ofFin x : BitVec 4)).toNat * 2 ^ 8 + kk.toNat := append_toNat _ _
  rw [h, append_toNat]; simp; omega

theorem formatXYN_toNat (op : BitVec 4) (x y : RegIdx) (n : Fin 16) :
    (formatXYN op x y n).toNat = op.toNat * 4096 + x.val * 256 + y.val * 16 + n.val := by
  have h : (formatXYN op x y n).toNat = (op ++ (BitVec.ofFin x : BitVec 4)).toNat * 2 ^ 8 +
    ((BitVec.ofFin y : BitVec 4) ++ (BitVec.ofFin n : BitVec 4)).toNat := append_toNat _ _
  rw [h, append_toNat, append_toNat]; simp; omega

/-! ## The bytes of the opcode table's words -/

theorem tableBytes_length (nbits w : Nat) : (tableBytes nbits w).length = 2 := rfl

end Sys2Proof
end

