-- ==== Sys2Proof/Laws/State.lean ====
section
/-!
SUPPORT. One lemma for each field under each update of the state, so that no proof unfolds an update; and the three
updates that are other updates by another name.
-/

namespace Sys2Proof.Machine.State

@[simp] theorem writeFlag_eq (s : State) (b : Byte) : s.writeFlag b = s.writeV vf b := rfl
@[simp] theorem advance_eq (s : State) : s.advance = s.setPc (s.pc + 2) := rfl
@[simp] theorem skipIf_eq (s : State) (c : Bool) :
    s.skipIf c = s.setPc (if c then s.pc + 4 else s.pc + 2) := rfl
@[simp] theorem withFetchWord_eq (s : State) (n w : Nat) : s.withFetchWord n w = s.placeWord n w := rfl

/-! ### writeV -/

@[simp] theorem writeV_v (s : State) (x : RegIdx) (b : Byte) :
    (s.writeV x b).v = s.v.set x b := rfl
@[simp] theorem writeV_i (s : State) (x : RegIdx) (b : Byte) :
    (s.writeV x b).i = s.i := rfl
@[simp] theorem writeV_pc (s : State) (x : RegIdx) (b : Byte) :
    (s.writeV x b).pc = s.pc := rfl
@[simp] theorem writeV_stack (s : State) (x : RegIdx) (b : Byte) :
    (s.writeV x b).stack = s.stack := rfl
@[simp] theorem writeV_sp (s : State) (x : RegIdx) (b : Byte) :
    (s.writeV x b).sp = s.sp := rfl
@[simp] theorem writeV_dt (s : State) (x : RegIdx) (b : Byte) :
    (s.writeV x b).dt = s.dt := rfl
@[simp] theorem writeV_st (s : State) (x : RegIdx) (b : Byte) :
    (s.writeV x b).st = s.st := rfl
@[simp] theorem writeV_mem (s : State) (x : RegIdx) (b : Byte) :
    (s.writeV x b).mem = s.mem := rfl
@[simp] theorem writeV_fb (s : State) (x : RegIdx) (b : Byte) :
    (s.writeV x b).fb = s.fb := rfl
@[simp] theorem writeV_key (s : State) (x : RegIdx) (b : Byte) :
    (s.writeV x b).key = s.key := rfl
@[simp] theorem writeV_redraw (s : State) (x : RegIdx) (b : Byte) :
    (s.writeV x b).redraw = s.redraw := rfl
@[simp] theorem writeV_fault (s : State) (x : RegIdx) (b : Byte) :
    (s.writeV x b).fault = s.fault := rfl
@[simp] theorem writeV_rnd (s : State) (x : RegIdx) (b : Byte) :
    (s.writeV x b).rnd = s.rnd := rfl
@[simp] theorem writeV_rndIndex (s : State) (x : RegIdx) (b : Byte) :
    (s.writeV x b).rndIndex = s.rndIndex := rfl
@[simp] theorem writeV_report (s : State) (x : RegIdx) (b : Byte) :
    (s.writeV x b).report = s.report := rfl
@[simp] theorem writeV_readMem (s : State) (x : RegIdx) (b : Byte) (adr : Nat) :
    (s.writeV x b).readMem adr = s.readMem adr := rfl
@[simp] theorem writeV_pixel (s : State) (x : RegIdx) (b : Byte) (py : Fin 32) (px : Fin 64) :
    (s.writeV x b).pixel py px = s.pixel py px := rfl

/-! ### setI -/

@[simp] theorem setI_v (s : State) (w : Word) :
    (s.setI w).v = s.v := rfl
@[simp] theorem setI_i (s : State) (w : Word) :
    (s.setI w).i = w := rfl
@[simp] theorem setI_pc (s : State) (w : Word) :
    (s.setI w).pc = s.pc := rfl
@[simp] theorem setI_stack (s : State) (w : Word) :
    (s.setI w).stack = s.stack := rfl
@[simp] theorem setI_sp (s : State) (w : Word) :
    (s.setI w).sp = s.sp := rfl
@[simp] theorem setI_dt (s : State) (w : Word) :
    (s.setI w).dt = s.dt := rfl
@[simp] theorem setI_st (s : State) (w : Word) :
    (s.setI w).st = s.st := rfl
@[simp] theorem setI_mem (s : State) (w : Word) :
    (s.setI w).mem = s.mem := rfl
@[simp] theorem setI_fb (s : State) (w : Word) :
    (s.setI w).fb = s.fb := rfl
@[simp] theorem setI_key (s : State) (w : Word) :
    (s.setI w).key = s.key := rfl
@[simp] theorem setI_redraw (s : State) (w : Word) :
    (s.setI w).redraw = s.redraw := rfl
@[simp] theorem setI_fault (s : State) (w : Word) :
    (s.setI w).fault = s.fault := rfl
@[simp] theorem setI_rnd (s : State) (w : Word) :
    (s.setI w).rnd = s.rnd := rfl
@[simp] theorem setI_rndIndex (s : State) (w : Word) :
    (s.setI w).rndIndex = s.rndIndex := rfl
@[simp] theorem setI_report (s : State) (w : Word) :
    (s.setI w).report = s.report := rfl
@[simp] theorem setI_readV (s : State) (w : Word) (j : RegIdx) :
    (s.setI w).readV j = s.readV j := rfl
@[simp] theorem setI_readMem (s : State) (w : Word) (adr : Nat) :
    (s.setI w).readMem adr = s.readMem adr := rfl
@[simp] theorem setI_pixel (s : State) (w : Word) (py : Fin 32) (px : Fin 64) :
    (s.setI w).pixel py px = s.pixel py px := rfl

/-! ### setDt -/

@[simp] theorem setDt_v (s : State) (b : Byte) :
    (s.setDt b).v = s.v := rfl
@[simp] theorem setDt_i (s : State) (b : Byte) :
    (s.setDt b).i = s.i := rfl
@[simp] theorem setDt_pc (s : State) (b : Byte) :
    (s.setDt b).pc = s.pc := rfl
@[simp] theorem setDt_stack (s : State) (b : Byte) :
    (s.setDt b).stack = s.stack := rfl
@[simp] theorem setDt_sp (s : State) (b : Byte) :
    (s.setDt b).sp = s.sp := rfl
@[simp] theorem setDt_dt (s : State) (b : Byte) :
    (s.setDt b).dt = b := rfl
@[simp] theorem setDt_st (s : State) (b : Byte) :
    (s.setDt b).st = s.st := rfl
@[simp] theorem setDt_mem (s : State) (b : Byte) :
    (s.setDt b).mem = s.mem := rfl
@[simp] theorem setDt_fb (s : State) (b : Byte) :
    (s.setDt b).fb = s.fb := rfl
@[simp] theorem setDt_key (s : State) (b : Byte) :
    (s.setDt b).key = s.key := rfl
@[simp] theorem setDt_redraw (s : State) (b : Byte) :
    (s.setDt b).redraw = s.redraw := rfl
@[simp] theorem setDt_fault (s : State) (b : Byte) :
    (s.setDt b).fault = s.fault := rfl
@[simp] theorem setDt_rnd (s : State) (b : Byte) :
    (s.setDt b).rnd = s.rnd := rfl
@[simp] theorem setDt_rndIndex (s : State) (b : Byte) :
    (s.setDt b).rndIndex = s.rndIndex := rfl
@[simp] theorem setDt_report (s : State) (b : Byte) :
    (s.setDt b).report = s.report := rfl
@[simp] theorem setDt_readV (s : State) (b : Byte) (j : RegIdx) :
    (s.setDt b).readV j = s.readV j := rfl
@[simp] theorem setDt_readMem (s : State) (b : Byte) (adr : Nat) :
    (s.setDt b).readMem adr = s.readMem adr := rfl
@[simp] theorem setDt_pixel (s : State) (b : Byte) (py : Fin 32) (px : Fin 64) :
    (s.setDt b).pixel py px = s.pixel py px := rfl

/-! ### setSt -/

@[simp] theorem setSt_v (s : State) (b : Byte) :
    (s.setSt b).v = s.v := rfl
@[simp] theorem setSt_i (s : State) (b : Byte) :
    (s.setSt b).i = s.i := rfl
@[simp] theorem setSt_pc (s : State) (b : Byte) :
    (s.setSt b).pc = s.pc := rfl
@[simp] theorem setSt_stack (s : State) (b : Byte) :
    (s.setSt b).stack = s.stack := rfl
@[simp] theorem setSt_sp (s : State) (b : Byte) :
    (s.setSt b).sp = s.sp := rfl
@[simp] theorem setSt_dt (s : State) (b : Byte) :
    (s.setSt b).dt = s.dt := rfl
@[simp] theorem setSt_st (s : State) (b : Byte) :
    (s.setSt b).st = b := rfl
@[simp] theorem setSt_mem (s : State) (b : Byte) :
    (s.setSt b).mem = s.mem := rfl
@[simp] theorem setSt_fb (s : State) (b : Byte) :
    (s.setSt b).fb = s.fb := rfl
@[simp] theorem setSt_key (s : State) (b : Byte) :
    (s.setSt b).key = s.key := rfl
@[simp] theorem setSt_redraw (s : State) (b : Byte) :
    (s.setSt b).redraw = s.redraw := rfl
@[simp] theorem setSt_fault (s : State) (b : Byte) :
    (s.setSt b).fault = s.fault := rfl
@[simp] theorem setSt_rnd (s : State) (b : Byte) :
    (s.setSt b).rnd = s.rnd := rfl
@[simp] theorem setSt_rndIndex (s : State) (b : Byte) :
    (s.setSt b).rndIndex = s.rndIndex := rfl
@[simp] theorem setSt_report (s : State) (b : Byte) :
    (s.setSt b).report = s.report := rfl
@[simp] theorem setSt_readV (s : State) (b : Byte) (j : RegIdx) :
    (s.setSt b).readV j = s.readV j := rfl
@[simp] theorem setSt_readMem (s : State) (b : Byte) (adr : Nat) :
    (s.setSt b).readMem adr = s.readMem adr := rfl
@[simp] theorem setSt_pixel (s : State) (b : Byte) (py : Fin 32) (px : Fin 64) :
    (s.setSt b).pixel py px = s.pixel py px := rfl

/-! ### setPc -/

@[simp] theorem setPc_v (s : State) (w : Word) :
    (s.setPc w).v = s.v := rfl
@[simp] theorem setPc_i (s : State) (w : Word) :
    (s.setPc w).i = s.i := rfl
@[simp] theorem setPc_pc (s : State) (w : Word) :
    (s.setPc w).pc = w := rfl
@[simp] theorem setPc_stack (s : State) (w : Word) :
    (s.setPc w).stack = s.stack := rfl
@[simp] theorem setPc_sp (s : State) (w : Word) :
    (s.setPc w).sp = s.sp := rfl
@[simp] theorem setPc_dt (s : State) (w : Word) :
    (s.setPc w).dt = s.dt := rfl
@[simp] theorem setPc_st (s : State) (w : Word) :
    (s.setPc w).st = s.st := rfl
@[simp] theorem setPc_mem (s : State) (w : Word) :
    (s.setPc w).mem = s.mem := rfl
@[simp] theorem setPc_fb (s : State) (w : Word) :
    (s.setPc w).fb = s.fb := rfl
@[simp] theorem setPc_key (s : State) (w : Word) :
    (s.setPc w).key = s.key := rfl
@[simp] theorem setPc_redraw (s : State) (w : Word) :
    (s.setPc w).redraw = s.redraw := rfl
@[simp] theorem setPc_fault (s : State) (w : Word) :
    (s.setPc w).fault = s.fault := rfl
@[simp] theorem setPc_rnd (s : State) (w : Word) :
    (s.setPc w).rnd = s.rnd := rfl
@[simp] theorem setPc_rndIndex (s : State) (w : Word) :
    (s.setPc w).rndIndex = s.rndIndex := rfl
@[simp] theorem setPc_report (s : State) (w : Word) :
    (s.setPc w).report = s.report := rfl
@[simp] theorem setPc_readV (s : State) (w : Word) (j : RegIdx) :
    (s.setPc w).readV j = s.readV j := rfl
@[simp] theorem setPc_readMem (s : State) (w : Word) (adr : Nat) :
    (s.setPc w).readMem adr = s.readMem adr := rfl
@[simp] theorem setPc_pixel (s : State) (w : Word) (py : Fin 32) (px : Fin 64) :
    (s.setPc w).pixel py px = s.pixel py px := rfl

/-! ### writeMem -/

@[simp] theorem writeMem_v (s : State) (a : Nat) (b : Byte) :
    (s.writeMem a b).v = s.v := rfl
@[simp] theorem writeMem_i (s : State) (a : Nat) (b : Byte) :
    (s.writeMem a b).i = s.i := rfl
@[simp] theorem writeMem_pc (s : State) (a : Nat) (b : Byte) :
    (s.writeMem a b).pc = s.pc := rfl
@[simp] theorem writeMem_stack (s : State) (a : Nat) (b : Byte) :
    (s.writeMem a b).stack = s.stack := rfl
@[simp] theorem writeMem_sp (s : State) (a : Nat) (b : Byte) :
    (s.writeMem a b).sp = s.sp := rfl
@[simp] theorem writeMem_dt (s : State) (a : Nat) (b : Byte) :
    (s.writeMem a b).dt = s.dt := rfl
@[simp] theorem writeMem_st (s : State) (a : Nat) (b : Byte) :
    (s.writeMem a b).st = s.st := rfl
@[simp] theorem writeMem_mem (s : State) (a : Nat) (b : Byte) :
    (s.writeMem a b).mem = s.mem.write a b := rfl
@[simp] theorem writeMem_fb (s : State) (a : Nat) (b : Byte) :
    (s.writeMem a b).fb = s.fb := rfl
@[simp] theorem writeMem_key (s : State) (a : Nat) (b : Byte) :
    (s.writeMem a b).key = s.key := rfl
@[simp] theorem writeMem_redraw (s : State) (a : Nat) (b : Byte) :
    (s.writeMem a b).redraw = s.redraw := rfl
@[simp] theorem writeMem_fault (s : State) (a : Nat) (b : Byte) :
    (s.writeMem a b).fault = s.fault := rfl
@[simp] theorem writeMem_rnd (s : State) (a : Nat) (b : Byte) :
    (s.writeMem a b).rnd = s.rnd := rfl
@[simp] theorem writeMem_rndIndex (s : State) (a : Nat) (b : Byte) :
    (s.writeMem a b).rndIndex = s.rndIndex := rfl
@[simp] theorem writeMem_report (s : State) (a : Nat) (b : Byte) :
    (s.writeMem a b).report = s.report := rfl
@[simp] theorem writeMem_readV (s : State) (a : Nat) (b : Byte) (j : RegIdx) :
    (s.writeMem a b).readV j = s.readV j := rfl
@[simp] theorem writeMem_pixel (s : State) (a : Nat) (b : Byte) (py : Fin 32) (px : Fin 64) :
    (s.writeMem a b).pixel py px = s.pixel py px := rfl

/-! ### writeMemBytes -/

@[simp] theorem writeMemBytes_v (s : State) (a : Nat) (bs : List Byte) :
    (s.writeMemBytes a bs).v = s.v := rfl
@[simp] theorem writeMemBytes_i (s : State) (a : Nat) (bs : List Byte) :
    (s.writeMemBytes a bs).i = s.i := rfl
@[simp] theorem writeMemBytes_pc (s : State) (a : Nat) (bs : List Byte) :
    (s.writeMemBytes a bs).pc = s.pc := rfl
@[simp] theorem writeMemBytes_stack (s : State) (a : Nat) (bs : List Byte) :
    (s.writeMemBytes a bs).stack = s.stack := rfl
@[simp] theorem writeMemBytes_sp (s : State) (a : Nat) (bs : List Byte) :
    (s.writeMemBytes a bs).sp = s.sp := rfl
@[simp] theorem writeMemBytes_dt (s : State) (a : Nat) (bs : List Byte) :
    (s.writeMemBytes a bs).dt = s.dt := rfl
@[simp] theorem writeMemBytes_st (s : State) (a : Nat) (bs : List Byte) :
    (s.writeMemBytes a bs).st = s.st := rfl
@[simp] theorem writeMemBytes_mem (s : State) (a : Nat) (bs : List Byte) :
    (s.writeMemBytes a bs).mem = s.mem.writeBytes a bs := rfl
@[simp] theorem writeMemBytes_fb (s : State) (a : Nat) (bs : List Byte) :
    (s.writeMemBytes a bs).fb = s.fb := rfl
@[simp] theorem writeMemBytes_key (s : State) (a : Nat) (bs : List Byte) :
    (s.writeMemBytes a bs).key = s.key := rfl
@[simp] theorem writeMemBytes_redraw (s : State) (a : Nat) (bs : List Byte) :
    (s.writeMemBytes a bs).redraw = s.redraw := rfl
@[simp] theorem writeMemBytes_fault (s : State) (a : Nat) (bs : List Byte) :
    (s.writeMemBytes a bs).fault = s.fault := rfl
@[simp] theorem writeMemBytes_rnd (s : State) (a : Nat) (bs : List Byte) :
    (s.writeMemBytes a bs).rnd = s.rnd := rfl
@[simp] theorem writeMemBytes_rndIndex (s : State) (a : Nat) (bs : List Byte) :
    (s.writeMemBytes a bs).rndIndex = s.rndIndex := rfl
@[simp] theorem writeMemBytes_report (s : State) (a : Nat) (bs : List Byte) :
    (s.writeMemBytes a bs).report = s.report := rfl
@[simp] theorem writeMemBytes_readV (s : State) (a : Nat) (bs : List Byte) (j : RegIdx) :
    (s.writeMemBytes a bs).readV j = s.readV j := rfl
@[simp] theorem writeMemBytes_pixel (s : State) (a : Nat) (bs : List Byte) (py : Fin 32) (px : Fin 64) :
    (s.writeMemBytes a bs).pixel py px = s.pixel py px := rfl

/-! ### loadRegs -/

@[simp] theorem loadRegs_v (s : State) (ks : List RegIdx) :
    (s.loadRegs ks).v = Sys2Proof.Machine.loadRegs s.mem s.i ks s.v := rfl
@[simp] theorem loadRegs_i (s : State) (ks : List RegIdx) :
    (s.loadRegs ks).i = s.i := rfl
@[simp] theorem loadRegs_pc (s : State) (ks : List RegIdx) :
    (s.loadRegs ks).pc = s.pc := rfl
@[simp] theorem loadRegs_stack (s : State) (ks : List RegIdx) :
    (s.loadRegs ks).stack = s.stack := rfl
@[simp] theorem loadRegs_sp (s : State) (ks : List RegIdx) :
    (s.loadRegs ks).sp = s.sp := rfl
@[simp] theorem loadRegs_dt (s : State) (ks : List RegIdx) :
    (s.loadRegs ks).dt = s.dt := rfl
@[simp] theorem loadRegs_st (s : State) (ks : List RegIdx) :
    (s.loadRegs ks).st = s.st := rfl
@[simp] theorem loadRegs_mem (s : State) (ks : List RegIdx) :
    (s.loadRegs ks).mem = s.mem := rfl
@[simp] theorem loadRegs_fb (s : State) (ks : List RegIdx) :
    (s.loadRegs ks).fb = s.fb := rfl
@[simp] theorem loadRegs_key (s : State) (ks : List RegIdx) :
    (s.loadRegs ks).key = s.key := rfl
@[simp] theorem loadRegs_redraw (s : State) (ks : List RegIdx) :
    (s.loadRegs ks).redraw = s.redraw := rfl
@[simp] theorem loadRegs_fault (s : State) (ks : List RegIdx) :
    (s.loadRegs ks).fault = s.fault := rfl
@[simp] theorem loadRegs_rnd (s : State) (ks : List RegIdx) :
    (s.loadRegs ks).rnd = s.rnd := rfl
@[simp] theorem loadRegs_rndIndex (s : State) (ks : List RegIdx) :
    (s.loadRegs ks).rndIndex = s.rndIndex := rfl
@[simp] theorem loadRegs_report (s : State) (ks : List RegIdx) :
    (s.loadRegs ks).report = s.report := rfl
@[simp] theorem loadRegs_readMem (s : State) (ks : List RegIdx) (adr : Nat) :
    (s.loadRegs ks).readMem adr = s.readMem adr := rfl
@[simp] theorem loadRegs_pixel (s : State) (ks : List RegIdx) (py : Fin 32) (px : Fin 64) :
    (s.loadRegs ks).pixel py px = s.pixel py px := rfl

/-! ### setScreen -/

@[simp] theorem setScreen_v (s : State) (g : Screen) :
    (s.setScreen g).v = s.v := rfl
@[simp] theorem setScreen_i (s : State) (g : Screen) :
    (s.setScreen g).i = s.i := rfl
@[simp] theorem setScreen_pc (s : State) (g : Screen) :
    (s.setScreen g).pc = s.pc := rfl
@[simp] theorem setScreen_stack (s : State) (g : Screen) :
    (s.setScreen g).stack = s.stack := rfl
@[simp] theorem setScreen_sp (s : State) (g : Screen) :
    (s.setScreen g).sp = s.sp := rfl
@[simp] theorem setScreen_dt (s : State) (g : Screen) :
    (s.setScreen g).dt = s.dt := rfl
@[simp] theorem setScreen_st (s : State) (g : Screen) :
    (s.setScreen g).st = s.st := rfl
@[simp] theorem setScreen_mem (s : State) (g : Screen) :
    (s.setScreen g).mem = s.mem := rfl
@[simp] theorem setScreen_fb (s : State) (g : Screen) :
    (s.setScreen g).fb = g := rfl
@[simp] theorem setScreen_key (s : State) (g : Screen) :
    (s.setScreen g).key = s.key := rfl
@[simp] theorem setScreen_redraw (s : State) (g : Screen) :
    (s.setScreen g).redraw = true := rfl
@[simp] theorem setScreen_fault (s : State) (g : Screen) :
    (s.setScreen g).fault = s.fault := rfl
@[simp] theorem setScreen_rnd (s : State) (g : Screen) :
    (s.setScreen g).rnd = s.rnd := rfl
@[simp] theorem setScreen_rndIndex (s : State) (g : Screen) :
    (s.setScreen g).rndIndex = s.rndIndex := rfl
@[simp] theorem setScreen_report (s : State) (g : Screen) :
    (s.setScreen g).report = s.report := rfl
@[simp] theorem setScreen_readV (s : State) (g : Screen) (j : RegIdx) :
    (s.setScreen g).readV j = s.readV j := rfl
@[simp] theorem setScreen_readMem (s : State) (g : Screen) (adr : Nat) :
    (s.setScreen g).readMem adr = s.readMem adr := rfl

/-! ### takeFault -/

@[simp] theorem takeFault_v (s : State) (c : FaultCause) (w : Word) :
    (s.takeFault c w).v = s.v := rfl
@[simp] theorem takeFault_i (s : State) (c : FaultCause) (w : Word) :
    (s.takeFault c w).i = s.i := rfl
@[simp] theorem takeFault_pc (s : State) (c : FaultCause) (w : Word) :
    (s.takeFault c w).pc = s.pc := rfl
@[simp] theorem takeFault_stack (s : State) (c : FaultCause) (w : Word) :
    (s.takeFault c w).stack = s.stack := rfl
@[simp] theorem takeFault_sp (s : State) (c : FaultCause) (w : Word) :
    (s.takeFault c w).sp = s.sp := rfl
@[simp] theorem takeFault_dt (s : State) (c : FaultCause) (w : Word) :
    (s.takeFault c w).dt = s.dt := rfl
@[simp] theorem takeFault_st (s : State) (c : FaultCause) (w : Word) :
    (s.takeFault c w).st = s.st := rfl
@[simp] theorem takeFault_mem (s : State) (c : FaultCause) (w : Word) :
    (s.takeFault c w).mem = s.mem := rfl
@[simp] theorem takeFault_fb (s : State) (c : FaultCause) (w : Word) :
    (s.takeFault c w).fb = s.fb := rfl
@[simp] theorem takeFault_key (s : State) (c : FaultCause) (w : Word) :
    (s.takeFault c w).key = s.key := rfl
@[simp] theorem takeFault_redraw (s : State) (c : FaultCause) (w : Word) :
    (s.takeFault c w).redraw = s.redraw := rfl
@[simp] theorem takeFault_fault (s : State) (c : FaultCause) (w : Word) :
    (s.takeFault c w).fault = some ⟨c, s.pc, w⟩ := rfl
@[simp] theorem takeFault_rnd (s : State) (c : FaultCause) (w : Word) :
    (s.takeFault c w).rnd = s.rnd := rfl
@[simp] theorem takeFault_rndIndex (s : State) (c : FaultCause) (w : Word) :
    (s.takeFault c w).rndIndex = s.rndIndex := rfl
@[simp] theorem takeFault_report (s : State) (c : FaultCause) (w : Word) :
    (s.takeFault c w).report = s.report := rfl
@[simp] theorem takeFault_readV (s : State) (c : FaultCause) (w : Word) (j : RegIdx) :
    (s.takeFault c w).readV j = s.readV j := rfl
@[simp] theorem takeFault_readMem (s : State) (c : FaultCause) (w : Word) (adr : Nat) :
    (s.takeFault c w).readMem adr = s.readMem adr := rfl
@[simp] theorem takeFault_pixel (s : State) (c : FaultCause) (w : Word) (py : Fin 32) (px : Fin 64) :
    (s.takeFault c w).pixel py px = s.pixel py px := rfl

/-! ### reportUnknown -/

@[simp] theorem reportUnknown_v (s : State) (w : Word) :
    (s.reportUnknown w).v = s.v := rfl
@[simp] theorem reportUnknown_i (s : State) (w : Word) :
    (s.reportUnknown w).i = s.i := rfl
@[simp] theorem reportUnknown_pc (s : State) (w : Word) :
    (s.reportUnknown w).pc = s.pc + 2 := rfl
@[simp] theorem reportUnknown_stack (s : State) (w : Word) :
    (s.reportUnknown w).stack = s.stack := rfl
@[simp] theorem reportUnknown_sp (s : State) (w : Word) :
    (s.reportUnknown w).sp = s.sp := rfl
@[simp] theorem reportUnknown_dt (s : State) (w : Word) :
    (s.reportUnknown w).dt = s.dt := rfl
@[simp] theorem reportUnknown_st (s : State) (w : Word) :
    (s.reportUnknown w).st = s.st := rfl
@[simp] theorem reportUnknown_mem (s : State) (w : Word) :
    (s.reportUnknown w).mem = s.mem := rfl
@[simp] theorem reportUnknown_fb (s : State) (w : Word) :
    (s.reportUnknown w).fb = s.fb := rfl
@[simp] theorem reportUnknown_key (s : State) (w : Word) :
    (s.reportUnknown w).key = s.key := rfl
@[simp] theorem reportUnknown_redraw (s : State) (w : Word) :
    (s.reportUnknown w).redraw = s.redraw := rfl
@[simp] theorem reportUnknown_fault (s : State) (w : Word) :
    (s.reportUnknown w).fault = s.fault := rfl
@[simp] theorem reportUnknown_rnd (s : State) (w : Word) :
    (s.reportUnknown w).rnd = s.rnd := rfl
@[simp] theorem reportUnknown_rndIndex (s : State) (w : Word) :
    (s.reportUnknown w).rndIndex = s.rndIndex := rfl
@[simp] theorem reportUnknown_report (s : State) (w : Word) :
    (s.reportUnknown w).report = some ⟨w, s.pc⟩ := rfl
@[simp] theorem reportUnknown_readV (s : State) (w : Word) (j : RegIdx) :
    (s.reportUnknown w).readV j = s.readV j := rfl
@[simp] theorem reportUnknown_readMem (s : State) (w : Word) (adr : Nat) :
    (s.reportUnknown w).readMem adr = s.readMem adr := rfl
@[simp] theorem reportUnknown_pixel (s : State) (w : Word) (py : Fin 32) (px : Fin 64) :
    (s.reportUnknown w).pixel py px = s.pixel py px := rfl

/-! ### tick -/

@[simp] theorem tick_v (s : State) :
    s.tick.v = s.v := rfl
@[simp] theorem tick_i (s : State) :
    s.tick.i = s.i := rfl
@[simp] theorem tick_pc (s : State) :
    s.tick.pc = s.pc := rfl
@[simp] theorem tick_stack (s : State) :
    s.tick.stack = s.stack := rfl
@[simp] theorem tick_sp (s : State) :
    s.tick.sp = s.sp := rfl
@[simp] theorem tick_dt (s : State) :
    s.tick.dt = tickByte s.dt := rfl
@[simp] theorem tick_st (s : State) :
    s.tick.st = tickByte s.st := rfl
@[simp] theorem tick_mem (s : State) :
    s.tick.mem = s.mem := rfl
@[simp] theorem tick_fb (s : State) :
    s.tick.fb = s.fb := rfl
@[simp] theorem tick_key (s : State) :
    s.tick.key = s.key := rfl
@[simp] theorem tick_redraw (s : State) :
    s.tick.redraw = s.redraw := rfl
@[simp] theorem tick_fault (s : State) :
    s.tick.fault = s.fault := rfl
@[simp] theorem tick_rnd (s : State) :
    s.tick.rnd = s.rnd := rfl
@[simp] theorem tick_rndIndex (s : State) :
    s.tick.rndIndex = s.rndIndex := rfl
@[simp] theorem tick_report (s : State) :
    s.tick.report = s.report := rfl
@[simp] theorem tick_readV (s : State) (j : RegIdx) :
    s.tick.readV j = s.readV j := rfl
@[simp] theorem tick_readMem (s : State) (adr : Nat) :
    s.tick.readMem adr = s.readMem adr := rfl
@[simp] theorem tick_pixel (s : State) (py : Fin 32) (px : Fin 64) :
    s.tick.pixel py px = s.pixel py px := rfl

/-! ### beginStep -/

@[simp] theorem beginStep_v (s : State) (r : Byte) :
    (s.beginStep r).v = s.v := rfl
@[simp] theorem beginStep_i (s : State) (r : Byte) :
    (s.beginStep r).i = s.i := rfl
@[simp] theorem beginStep_pc (s : State) (r : Byte) :
    (s.beginStep r).pc = s.pc := rfl
@[simp] theorem beginStep_stack (s : State) (r : Byte) :
    (s.beginStep r).stack = s.stack := rfl
@[simp] theorem beginStep_sp (s : State) (r : Byte) :
    (s.beginStep r).sp = s.sp := rfl
@[simp] theorem beginStep_dt (s : State) (r : Byte) :
    (s.beginStep r).dt = s.dt := rfl
@[simp] theorem beginStep_st (s : State) (r : Byte) :
    (s.beginStep r).st = s.st := rfl
@[simp] theorem beginStep_mem (s : State) (r : Byte) :
    (s.beginStep r).mem = s.mem := rfl
@[simp] theorem beginStep_fb (s : State) (r : Byte) :
    (s.beginStep r).fb = s.fb := rfl
@[simp] theorem beginStep_key (s : State) (r : Byte) :
    (s.beginStep r).key = s.key := rfl
@[simp] theorem beginStep_redraw (s : State) (r : Byte) :
    (s.beginStep r).redraw = s.redraw := rfl
@[simp] theorem beginStep_fault (s : State) (r : Byte) :
    (s.beginStep r).fault = s.fault := rfl
@[simp] theorem beginStep_rnd (s : State) (r : Byte) :
    (s.beginStep r).rnd = r := rfl
@[simp] theorem beginStep_rndIndex (s : State) (r : Byte) :
    (s.beginStep r).rndIndex = s.rndIndex := rfl
@[simp] theorem beginStep_report (s : State) (r : Byte) :
    (s.beginStep r).report = none := rfl
@[simp] theorem beginStep_readV (s : State) (r : Byte) (j : RegIdx) :
    (s.beginStep r).readV j = s.readV j := rfl
@[simp] theorem beginStep_readMem (s : State) (r : Byte) (adr : Nat) :
    (s.beginStep r).readMem adr = s.readMem adr := rfl
@[simp] theorem beginStep_pixel (s : State) (r : Byte) (py : Fin 32) (px : Fin 64) :
    (s.beginStep r).pixel py px = s.pixel py px := rfl

/-! ### takeRandom -/

@[simp] theorem takeRandom_v (s : State) :
    s.takeRandom.v = s.v := rfl
@[simp] theorem takeRandom_i (s : State) :
    s.takeRandom.i = s.i := rfl
@[simp] theorem takeRandom_pc (s : State) :
    s.takeRandom.pc = s.pc := rfl
@[simp] theorem takeRandom_stack (s : State) :
    s.takeRandom.stack = s.stack := rfl
@[simp] theorem takeRandom_sp (s : State) :
    s.takeRandom.sp = s.sp := rfl
@[simp] theorem takeRandom_dt (s : State) :
    s.takeRandom.dt = s.dt := rfl
@[simp] theorem takeRandom_st (s : State) :
    s.takeRandom.st = s.st := rfl
@[simp] theorem takeRandom_mem (s : State) :
    s.takeRandom.mem = s.mem := rfl
@[simp] theorem takeRandom_fb (s : State) :
    s.takeRandom.fb = s.fb := rfl
@[simp] theorem takeRandom_key (s : State) :
    s.takeRandom.key = s.key := rfl
@[simp] theorem takeRandom_redraw (s : State) :
    s.takeRandom.redraw = s.redraw := rfl
@[simp] theorem takeRandom_fault (s : State) :
    s.takeRandom.fault = s.fault := rfl
@[simp] theorem takeRandom_rnd (s : State) :
    s.takeRandom.rnd = s.rnd := rfl
@[simp] theorem takeRandom_rndIndex (s : State) :
    s.takeRandom.rndIndex = s.rndIndex + 1 := rfl
@[simp] theorem takeRandom_report (s : State) :
    s.takeRandom.report = s.report := rfl
@[simp] theorem takeRandom_readV (s : State) (j : RegIdx) :
    s.takeRandom.readV j = s.readV j := rfl
@[simp] theorem takeRandom_readMem (s : State) (adr : Nat) :
    s.takeRandom.readMem adr = s.readMem adr := rfl
@[simp] theorem takeRandom_pixel (s : State) (py : Fin 32) (px : Fin 64) :
    s.takeRandom.pixel py px = s.pixel py px := rfl

/-! ### placeWord -/

@[simp] theorem placeWord_v (s : State) (n w : Nat) :
    (s.placeWord n w).v = s.v := rfl
@[simp] theorem placeWord_i (s : State) (n w : Nat) :
    (s.placeWord n w).i = s.i := rfl
@[simp] theorem placeWord_pc (s : State) (n w : Nat) :
    (s.placeWord n w).pc = s.pc := rfl
@[simp] theorem placeWord_stack (s : State) (n w : Nat) :
    (s.placeWord n w).stack = s.stack := rfl
@[simp] theorem placeWord_sp (s : State) (n w : Nat) :
    (s.placeWord n w).sp = s.sp := rfl
@[simp] theorem placeWord_dt (s : State) (n w : Nat) :
    (s.placeWord n w).dt = s.dt := rfl
@[simp] theorem placeWord_st (s : State) (n w : Nat) :
    (s.placeWord n w).st = s.st := rfl
@[simp] theorem placeWord_mem (s : State) (n w : Nat) :
    (s.placeWord n w).mem = s.mem.writeBytes s.pc.toNat (tableBytes n w) := rfl
@[simp] theorem placeWord_fb (s : State) (n w : Nat) :
    (s.placeWord n w).fb = s.fb := rfl
@[simp] theorem placeWord_key (s : State) (n w : Nat) :
    (s.placeWord n w).key = s.key := rfl
@[simp] theorem placeWord_redraw (s : State) (n w : Nat) :
    (s.placeWord n w).redraw = s.redraw := rfl
@[simp] theorem placeWord_fault (s : State) (n w : Nat) :
    (s.placeWord n w).fault = none := rfl
@[simp] theorem placeWord_rnd (s : State) (n w : Nat) :
    (s.placeWord n w).rnd = s.rnd := rfl
@[simp] theorem placeWord_rndIndex (s : State) (n w : Nat) :
    (s.placeWord n w).rndIndex = s.rndIndex := rfl
@[simp] theorem placeWord_report (s : State) (n w : Nat) :
    (s.placeWord n w).report = s.report := rfl
@[simp] theorem placeWord_readV (s : State) (n w : Nat) (j : RegIdx) :
    (s.placeWord n w).readV j = s.readV j := rfl
@[simp] theorem placeWord_pixel (s : State) (n w : Nat) (py : Fin 32) (px : Fin 64) :
    (s.placeWord n w).pixel py px = s.pixel py px := rfl

/-! ### setKeys -/

@[simp] theorem setKeys_v (s : State) (k : Vector Bool 16) :
    (s.setKeys k).v = s.v := rfl
@[simp] theorem setKeys_i (s : State) (k : Vector Bool 16) :
    (s.setKeys k).i = s.i := rfl
@[simp] theorem setKeys_pc (s : State) (k : Vector Bool 16) :
    (s.setKeys k).pc = s.pc := rfl
@[simp] theorem setKeys_stack (s : State) (k : Vector Bool 16) :
    (s.setKeys k).stack = s.stack := rfl
@[simp] theorem setKeys_sp (s : State) (k : Vector Bool 16) :
    (s.setKeys k).sp = s.sp := rfl
@[simp] theorem setKeys_dt (s : State) (k : Vector Bool 16) :
    (s.setKeys k).dt = s.dt := rfl
@[simp] theorem setKeys_st (s : State) (k : Vector Bool 16) :
    (s.setKeys k).st = s.st := rfl
@[simp] theorem setKeys_mem (s : State) (k : Vector Bool 16) :
    (s.setKeys k).mem = s.mem := rfl
@[simp] theorem setKeys_fb (s : State) (k : Vector Bool 16) :
    (s.setKeys k).fb = s.fb := rfl
@[simp] theorem setKeys_key (s : State) (k : Vector Bool 16) :
    (s.setKeys k).key = k := rfl
@[simp] theorem setKeys_redraw (s : State) (k : Vector Bool 16) :
    (s.setKeys k).redraw = s.redraw := rfl
@[simp] theorem setKeys_fault (s : State) (k : Vector Bool 16) :
    (s.setKeys k).fault = s.fault := rfl
@[simp] theorem setKeys_rnd (s : State) (k : Vector Bool 16) :
    (s.setKeys k).rnd = s.rnd := rfl
@[simp] theorem setKeys_rndIndex (s : State) (k : Vector Bool 16) :
    (s.setKeys k).rndIndex = s.rndIndex := rfl
@[simp] theorem setKeys_report (s : State) (k : Vector Bool 16) :
    (s.setKeys k).report = s.report := rfl
@[simp] theorem setKeys_readV (s : State) (k : Vector Bool 16) (j : RegIdx) :
    (s.setKeys k).readV j = s.readV j := rfl
@[simp] theorem setKeys_readMem (s : State) (k : Vector Bool 16) (adr : Nat) :
    (s.setKeys k).readMem adr = s.readMem adr := rfl
@[simp] theorem setKeys_pixel (s : State) (k : Vector Bool 16) (py : Fin 32) (px : Fin 64) :
    (s.setKeys k).pixel py px = s.pixel py px := rfl

/-! ### clearRedraw -/

@[simp] theorem clearRedraw_v (s : State) :
    s.clearRedraw.v = s.v := rfl
@[simp] theorem clearRedraw_i (s : State) :
    s.clearRedraw.i = s.i := rfl
@[simp] theorem clearRedraw_pc (s : State) :
    s.clearRedraw.pc = s.pc := rfl
@[simp] theorem clearRedraw_stack (s : State) :
    s.clearRedraw.stack = s.stack := rfl
@[simp] theorem clearRedraw_sp (s : State) :
    s.clearRedraw.sp = s.sp := rfl
@[simp] theorem clearRedraw_dt (s : State) :
    s.clearRedraw.dt = s.dt := rfl
@[simp] theorem clearRedraw_st (s : State) :
    s.clearRedraw.st = s.st := rfl
@[simp] theorem clearRedraw_mem (s : State) :
    s.clearRedraw.mem = s.mem := rfl
@[simp] theorem clearRedraw_fb (s : State) :
    s.clearRedraw.fb = s.fb := rfl
@[simp] theorem clearRedraw_key (s : State) :
    s.clearRedraw.key = s.key := rfl
@[simp] theorem clearRedraw_redraw (s : State) :
    s.clearRedraw.redraw = false := rfl
@[simp] theorem clearRedraw_fault (s : State) :
    s.clearRedraw.fault = s.fault := rfl
@[simp] theorem clearRedraw_rnd (s : State) :
    s.clearRedraw.rnd = s.rnd := rfl
@[simp] theorem clearRedraw_rndIndex (s : State) :
    s.clearRedraw.rndIndex = s.rndIndex := rfl
@[simp] theorem clearRedraw_report (s : State) :
    s.clearRedraw.report = s.report := rfl
@[simp] theorem clearRedraw_readV (s : State) (j : RegIdx) :
    s.clearRedraw.readV j = s.readV j := rfl
@[simp] theorem clearRedraw_readMem (s : State) (adr : Nat) :
    s.clearRedraw.readMem adr = s.readMem adr := rfl
@[simp] theorem clearRedraw_pixel (s : State) (py : Fin 32) (px : Fin 64) :
    s.clearRedraw.pixel py px = s.pixel py px := rfl

end Sys2Proof.Machine.State
end

