-- ==== Sys2Proof/Laws/Memory.lean ====
section
/-!
SUPPORT. Memory: a read after a write, runs of bytes, and that every operation keeps the canonical form.
-/

namespace Sys2Proof.Machine

/-! ## Lookup in the list of cells -/

theorem lookupCell_eraseCell (a k : Nat) (m : Memory) :
    lookupCell a (eraseCell k m) = if a = k then unlistedByte a else lookupCell a m := by
  induction m with
  | nil => simp [eraseCell, lookupCell]
  | cons c cs ih =>
    simp only [eraseCell, List.filter_cons, lookupCell] at ih ⊢
    by_cases hk : c.1 = k
    · by_cases ha : a = k
      · simp_all
      · have hc : ¬ c.1 = a := by omega
        simp_all
    · by_cases ha : a = k
      · have hc : ¬ c.1 = a := by omega
        simp_all [lookupCell]
      · simp_all [lookupCell]

theorem lookupCell_insertCell (a k : Nat) (b : Byte) (m : Memory) (hk : ∀ c ∈ m, c.1 ≠ k) :
    lookupCell a (insertCell (k, b) m) = if a = k then b else lookupCell a m := by
  induction m with
  | nil => simp [insertCell, lookupCell, eq_comm]
  | cons c cs ih =>
    have hck : c.1 ≠ k := hk c (by simp)
    have ih := ih fun d hd => hk d (by simp [hd])
    unfold insertCell
    split
    · by_cases h : a = k <;> simp [lookupCell, h]
      intro h'; exact absurd h'.symm h
    · by_cases h : a = k
      · subst h; simp [lookupCell, hck, ih]
      · simp [lookupCell, ih, h]

theorem mem_eraseCell {c : Host.Cell} {k : Nat} {m : Memory} : c ∈ eraseCell k m ↔ c ∈ m ∧ c.1 ≠ k := by
  simp [eraseCell]

theorem mem_insertCell {c d : Host.Cell} {m : Memory} : c ∈ insertCell d m ↔ c = d ∨ c ∈ m := by
  induction m with
  | nil => simp [insertCell]
  | cons e es ih =>
    unfold insertCell
    split
    · simp
    · simp only [List.mem_cons, ih]; tauto

/-! ## One byte (20_memory.md R27, R28) -/

/-- A read after a write: the written byte at the written address, modulo 4096, and every other byte as before. -/
theorem read_write (m : Memory) (a c : Nat) (b : Byte) :
    (m.write a b).read c = if c % 4096 = a % 4096 then b else m.read c := by
  unfold Memory.write Memory.read
  simp only [Config.memSize]
  split
  · rw [lookupCell_eraseCell]
    split <;> simp_all
  · rw [lookupCell_insertCell _ _ _ _ (fun d hd => (mem_eraseCell.1 hd).2), lookupCell_eraseCell]
    split <;> simp_all

theorem read_mod (m : Memory) (a : Nat) : m.read (a % 4096) = m.read a := by
  simp [Memory.read, Config.memSize]

theorem read_congr (m : Memory) {a c : Nat} (h : a % 4096 = c % 4096) : m.read a = m.read c := by
  simp [Memory.read, Config.memSize, h]

@[simp] theorem read_nil (a : Nat) : Memory.read [] a = unlistedByte (a % 4096) := rfl

theorem unlistedByte_of_ge {a : Nat} (h : 80 ≤ a) : unlistedByte a = 0 := by
  have hl : Config.fontTable.length = 80 := by decide
  simp [unlistedByte, List.getD_eq_getElem?_getD, List.getElem?_eq_none (hl.symm ▸ h : Config.fontTable.length ≤ a)]

theorem unlistedByte_of_lt {a : Nat} (h : a < 80) : some (unlistedByte a) = Config.fontTable[a]? := by
  have hl : Config.fontTable.length = 80 := by decide
  have : a < Config.fontTable.length := by omega
  simp [unlistedByte, List.getD_eq_getElem?_getD, List.getElem?_eq_getElem this]

/-! ## A run of bytes -/

/-- A byte outside the written run is as before. -/
theorem read_writeBytes_other (bs : List Byte) (m : Memory) (a c : Nat)
    (h : ∀ k, k < bs.length → c % 4096 ≠ (a + k) % 4096) : (m.writeBytes a bs).read c = m.read c := by
  induction bs generalizing m a with
  | nil => rfl
  | cons b bs ih =>
    rw [Memory.writeBytes, ih, read_write, if_neg]
    · exact h 0 (Nat.succ_pos _)
    · intro k hk
      have := h (k + 1) (by simpa using hk)
      rwa [show a + (k + 1) = a + 1 + k by omega] at this

/-- Byte `k` of a written run of at most 4096 bytes is byte `k` of the list. -/
theorem read_writeBytes (bs : List Byte) (m : Memory) (a k : Nat) (b : Byte) (hl : bs.length ≤ 4096)
    (hb : bs[k]? = some b) : (m.writeBytes a bs).read (a + k) = b := by
  induction bs generalizing m a k with
  | nil => simp at hb
  | cons d bs ih =>
    simp only [List.length_cons] at hl
    rw [Memory.writeBytes]
    cases k with
    | zero =>
      rw [read_writeBytes_other, read_write, Nat.add_zero, if_pos rfl]
      · simpa using hb
      · intro j hj; omega
    | succ k =>
      rw [show a + (k + 1) = a + 1 + k by omega]
      exact ih _ _ _ (by omega) (by simpa using hb)

/-! ## The canonical form -/

theorem wf_nil : Memory.wf [] := ⟨List.Pairwise.nil, fun _ h => nomatch h⟩

theorem wf_eraseCell {m : Memory} (h : m.wf) (k : Nat) : Memory.wf (eraseCell k m) :=
  ⟨h.1.filter _, fun c hc => h.2 c (mem_eraseCell.1 hc).1⟩

theorem pairwise_insertCell {d : Host.Cell} {m : Memory} (hm : m.Pairwise (fun c e => c.1 < e.1))
    (hd : ∀ c ∈ m, c.1 ≠ d.1) : (insertCell d m).Pairwise (fun c e => c.1 < e.1) := by
  induction m with
  | nil => simp [insertCell]
  | cons e es ih =>
    have hm' := List.pairwise_cons.1 hm
    have hed : e.1 ≠ d.1 := hd e (by simp)
    unfold insertCell
    split
    · rename_i hlt
      refine List.pairwise_cons.2 ⟨fun c hc => ?_, hm⟩
      rcases List.mem_cons.1 hc with rfl | hc
      · exact hlt
      · exact Nat.lt_trans hlt (hm'.1 c hc)
    · refine List.pairwise_cons.2 ⟨fun c hc => ?_, ih hm'.2 fun c hc => hd c (by simp [hc])⟩
      rcases mem_insertCell.1 hc with rfl | hc
      · omega
      · exact hm'.1 c hc

theorem wf_write {m : Memory} (h : m.wf) (a : Nat) (b : Byte) : (m.write a b).wf := by
  have he := wf_eraseCell h (a % 4096)
  unfold Memory.write
  simp only [Config.memSize]
  split
  · exact he
  · rename_i hb
    refine ⟨pairwise_insertCell he.1 fun c hc => (mem_eraseCell.1 hc).2, fun c hc => ?_⟩
    rcases mem_insertCell.1 hc with rfl | hc
    · exact ⟨Nat.mod_lt _ (by decide), hb⟩
    · exact he.2 c hc

theorem wf_writeBytes {m : Memory} (h : m.wf) (a : Nat) (bs : List Byte) : (m.writeBytes a bs).wf := by
  induction bs generalizing m a with
  | nil => exact h
  | cons b bs ih => exact ih (wf_write h a b) (a + 1)

/-- Reset's memory has the canonical form. -/
theorem reset_mem_wf : State.reset.mem.wf := wf_nil

end Sys2Proof.Machine
end

