-- ==== Sys2Proof/Laws/Ops.lean ====
section
/-!
SUPPORT. One lemma for each shared operation: everything it can answer.
-/

namespace Sys2Proof.Machine

/-! ## Registers -/

/-- A register reads back the last value written to it (10_state.md R10). -/
@[simp] theorem State.writeV_readV (s : State) (x y : RegIdx) (b : Byte) :
    (s.writeV x b).readV y = if y = x then b else s.readV y := by
  simp [State.readV, State.writeV, Vector.getElem_set, Fin.ext_iff, eq_comm]

/-- Loading a list of registers: a listed register holds its byte of memory, any other its old value. -/
theorem getElem_loadRegs (m : Memory) (i : Word) (ks : List RegIdx) (v : Vector Byte 16) (j : RegIdx) :
    (loadRegs m i ks v)[j] = if j ∈ ks then m.read (effAddr i j.val) else v[j] := by
  induction ks generalizing v with
  | nil => simp [loadRegs]
  | cons k ks ih =>
    rw [loadRegs, ih]
    by_cases hj : j ∈ ks
    · simp [hj]
    · by_cases hk : j = k
      · subst hk; simp [hj]
      · have : ¬ k.val = j.val := fun h => hk (Fin.ext h.symm)
        simp [hj, hk, this]

@[simp] theorem State.loadRegs_readV (s : State) (ks : List RegIdx) (j : RegIdx) :
    (s.loadRegs ks).readV j = if j ∈ ks then s.readMem (effAddr s.i j.val) else s.readV j :=
  getElem_loadRegs s.mem s.i ks s.v j

/-- The registers of Fx55 and Fx65 are those up to `x` (43_index_memory.md R85, R86). -/
theorem mem_regsUpTo (x k : RegIdx) : k ∈ regsUpTo x ↔ k.val ≤ x.val := by
  revert x k; decide

theorem regsUpTo_length (x : RegIdx) : (regsUpTo x).length = x.val + 1 := by
  revert x; decide

theorem regsUpTo_getElem? (x k : RegIdx) (h : k.val ≤ x.val) : (regsUpTo x)[k.val]? = some k := by
  revert x k; decide

/-! ## The call stack -/

/-- A push fails exactly when 16 entries are in use (10_state.md R15). -/
theorem State.push_eq_none {s : State} {w : Word} : s.push w = none ↔ s.sp.val = 16 := by
  have := s.sp.isLt
  unfold State.push; split <;> simp; omega; omega

/-- What a push that succeeds leaves (10_state.md R15). -/
theorem State.push_eq_some {s t : State} {w : Word} (h : s.push w = some t) :
    ∃ hlt : s.sp.val < 16, t = { s with stack := s.stack.set s.sp.val w hlt, sp := ⟨s.sp.val + 1, by omega⟩ } := by
  unfold State.push at h
  split at h
  · rename_i hlt; exact ⟨hlt, (Option.some.inj h).symm⟩
  · cases h

theorem State.push_of_lt {s : State} (w : Word) (h : s.sp.val < 16) :
    s.push w = some { s with stack := s.stack.set s.sp.val w h, sp := ⟨s.sp.val + 1, by omega⟩ } := by
  simp [State.push, h]

/-- A pop fails exactly when no entry is in use (10_state.md R15). -/
theorem State.pop_eq_none {s : State} : s.pop = none ↔ s.sp.val = 0 := by
  unfold State.pop; split <;> simp; omega; omega

/-- What a pop that succeeds answers and leaves; the entry keeps its value (10_state.md R14, R15). -/
theorem State.pop_eq_some {s t : State} {w : Word} (h : s.pop = some (w, t)) :
    ∃ hlt : 0 < s.sp.val, w = s.stack[s.sp.val - 1] ∧ t = { s with sp := ⟨s.sp.val - 1, by omega⟩ } := by
  unfold State.pop at h
  split at h
  · rename_i hlt
    obtain ⟨rfl, rfl⟩ := Prod.mk.inj (Option.some.inj h)
    exact ⟨hlt, rfl, rfl⟩
  · cases h

theorem State.pop_of_pos {s : State} (h : 0 < s.sp.val) :
    s.pop = some (s.stack[s.sp.val - 1], { s with sp := ⟨s.sp.val - 1, by omega⟩ }) := by
  simp [State.pop, h]

/-! ## Memory through the state -/

@[simp] theorem State.writeMem_readMem (s : State) (a c : Nat) (b : Byte) :
    (s.writeMem a b).readMem c = if c % 4096 = a % 4096 then b else s.readMem c := read_write s.mem a c b

theorem State.writeMemBytes_readMem_other (s : State) (a c : Nat) (bs : List Byte)
    (h : ∀ k, k < bs.length → c % 4096 ≠ (a + k) % 4096) : (s.writeMemBytes a bs).readMem c = s.readMem c :=
  read_writeBytes_other bs s.mem a c h

theorem State.writeMemBytes_readMem (s : State) (a k : Nat) (bs : List Byte) (b : Byte) (hl : bs.length ≤ 4096)
    (hb : bs[k]? = some b) : (s.writeMemBytes a bs).readMem (a + k) = b :=
  read_writeBytes bs s.mem a k b hl hb

/-! ## Keys -/

/-- A byte names a key exactly when it is at most 0xF (45_timers_input.md R91). -/
theorem keyIndex_eq_some {b : Byte} {k : Fin 16} : keyIndex b = some k ↔ b.toNat = k.val := by
  unfold keyIndex
  split
  · simp [Fin.ext_iff]
  · simp; omega

theorem keyIndex_eq_none {b : Byte} : keyIndex b = none ↔ 0xF < b.toNat := by
  unfold keyIndex
  split <;> simp <;> omega

/-- The scan keeps what it had when no listed key is pressed. -/
theorem scanKeys_none_pressed (key : Vector Bool 16) (ks : List (Fin 16)) (found : Option (Fin 16))
    (h : ∀ k ∈ ks, key[k] = false) : scanKeys key ks found = found := by
  induction ks generalizing found with
  | nil => rfl
  | cons k ks ih =>
    rw [scanKeys, ih _ fun j hj => h j (by simp [hj])]
    simp [h k (by simp)]

/-- The scan over `ks ++ k :: js` ends at `k` when `k` is pressed and none of `js` is. -/
theorem scanKeys_last (key : Vector Bool 16) (ks js : List (Fin 16)) (k : Fin 16) (found : Option (Fin 16))
    (hk : key[k] = true) (hj : ∀ j ∈ js, key[j] = false) : scanKeys key (ks ++ k :: js) found = some k := by
  induction ks generalizing found with
  | nil => rw [List.nil_append, scanKeys, scanKeys_none_pressed key js _ hj, if_pos hk]
  | cons l ls ih => exact ih _

theorem allIdx_split (k : Fin 16) : allIdx = allIdx.take k.val ++ k :: allIdx.drop (k.val + 1) := by
  revert k; decide

theorem mem_drop_allIdx (k j : Fin 16) : j ∈ allIdx.drop (k.val + 1) → k < j := by
  revert k j; decide

/-- No key is found exactly when none is pressed (45_timers_input.md R94). -/
theorem highestKey_of_none {key : Vector Bool 16} (h : ∀ k : Fin 16, key[k] = false) : highestKey key = none :=
  scanKeys_none_pressed key allIdx none fun k _ => h k

/-- The key found is the pressed one with none above it pressed (45_timers_input.md R94). -/
theorem highestKey_of_highest {key : Vector Bool 16} {k : Fin 16} (hk : key[k] = true)
    (h : ∀ j : Fin 16, k < j → key[j] = false) : highestKey key = some k := by
  rw [highestKey, allIdx_split k]
  exact scanKeys_last key _ _ k none hk fun j hj => h j (mem_drop_allIdx k j hj)

theorem keyByte_toNat (k : Fin 16) : (keyByte k).toNat = k.val := by
  simp [keyByte]; omega

/-! ## Values and flags -/

theorem tickByte_toNat (t : Byte) : (tickByte t).toNat = t.toNat - 1 := by
  unfold tickByte
  split
  · simp_all
  · rename_i h
    have h0 : t.toNat ≠ 0 := fun h' => h (BitVec.eq_of_toNat_eq h')
    rw [BitVec.toNat_sub]
    have := t.isLt
    simp; omega

theorem zextAddr_toNat (addr : Addr12) : (zextAddr addr).toNat = addr.toNat := by
  have := addr.isLt
  simp [zextAddr]; omega

theorem zextByte_toNat (b : Byte) : (zextByte b).toNat = b.toNat := by
  have := b.isLt
  simp [zextByte]; omega

theorem indexedTarget_toNat (addr : Addr12) (b : Byte) :
    (indexedTarget addr b).toNat = addr.toNat + b.toNat := by
  have := addr.isLt
  have := b.isLt
  rw [indexedTarget, BitVec.toNat_add, zextAddr_toNat, zextByte_toNat]; omega

theorem glyphAddr_toNat (b : Byte) : (glyphAddr b).toNat = b.toNat * 5 := by
  have := b.isLt
  simp [glyphAddr]; omega

theorem flagByte_decide (p : Prop) [Decidable p] : flagByte (decide p) = if p then 1 else 0 := by
  by_cases h : p <;> simp [flagByte, h]

/-! ## The framebuffer -/

theorem getElem_flipPixel (fb : Screen) (y py : Fin 32) (x px : Fin 64) :
    (flipPixel fb y x)[py][px] = if py = y ∧ px = x then !fb[py][px] else fb[py][px] := by
  unfold flipPixel
  by_cases hy : py = y
  · subst hy
    by_cases hx : px = x
    · subst hx; simp
    · have : ¬ x.val = px.val := fun h => hx (Fin.ext h.symm)
      simp [hx, this]
  · have : ¬ y.val = py.val := fun h => hy (Fin.ext h.symm)
    simp [hy, this]

/-- A pixel off the list is as before the blit. -/
theorem blit_other (cs : List (Fin 32 × Fin 64)) (fb : Screen) (hit : Bool) (py : Fin 32) (px : Fin 64)
    (h : (py, px) ∉ cs) : (blit cs fb hit).1[py][px] = fb[py][px] := by
  induction cs generalizing fb hit with
  | nil => rfl
  | cons c cs ih =>
    have hc : ¬ (py = c.1 ∧ px = c.2) := fun hc => h (by simp [hc.1, hc.2])
    rw [blit, ih _ _ fun h' => h (by simp [h']), getElem_flipPixel, if_neg hc]

/-- A pixel that a list with no repeats holds is flipped by the blit. -/
theorem blit_listed (cs : List (Fin 32 × Fin 64)) (fb : Screen) (hit : Bool) (py : Fin 32) (px : Fin 64)
    (hn : cs.Nodup) (h : (py, px) ∈ cs) : (blit cs fb hit).1[py][px] = !fb[py][px] := by
  induction cs generalizing fb hit with
  | nil => cases h
  | cons c cs ih =>
    have hn' := List.nodup_cons.1 hn
    rw [blit]
    by_cases hc : (py, px) = c
    · subst hc
      rw [blit_other _ _ _ _ _ hn'.1, getElem_flipPixel, if_pos ⟨rfl, rfl⟩]
    · have hc' : ¬ (py = c.1 ∧ px = c.2) := fun h' => hc (Prod.ext h'.1 h'.2)
      rw [ih _ _ hn'.2 ((List.mem_cons.1 h).resolve_left hc), getElem_flipPixel, if_neg hc']

/-- The blit of a list with no repeats hits exactly when a listed pixel was set. -/
theorem blit_hit (cs : List (Fin 32 × Fin 64)) (fb : Screen) (hit : Bool) (hn : cs.Nodup) :
    (blit cs fb hit).2 = true ↔ hit = true ∨ ∃ c ∈ cs, fb[c.1][c.2] = true := by
  induction cs generalizing fb hit with
  | nil => simp [blit]
  | cons c cs ih =>
    have hn' := List.nodup_cons.1 hn
    rw [blit, ih _ _ hn'.2]
    have hsame : ∀ d ∈ cs, (flipPixel fb c.1 c.2)[d.1][d.2] = fb[d.1][d.2] := fun d hd => by
      rw [getElem_flipPixel, if_neg]
      rintro ⟨h1, h2⟩
      exact hn'.1 (Prod.ext h1 h2 ▸ hd)
    constructor
    · rintro (h | ⟨d, hd, h⟩)
      · rcases Bool.or_eq_true_iff.1 h with h | h
        · exact .inl h
        · exact .inr ⟨c, by simp, h⟩
      · exact .inr ⟨d, by simp [hd], hsame d hd ▸ h⟩
    · rintro (h | ⟨d, hd, h⟩)
      · exact .inl (Bool.or_eq_true_iff.2 (.inl h))
      · rcases List.mem_cons.1 hd with rfl | hd
        · exact .inl (Bool.or_eq_true_iff.2 (.inr h))
        · exact .inr ⟨d, hd, (hsame d hd).symm ▸ h⟩

theorem mem_rowColumns {b : Byte} {col : Nat} : col ∈ rowColumns b ↔ col < 8 ∧ b.getLsbD (7 - col) = true := by
  simp only [rowColumns, List.mem_filter]
  refine and_congr_left fun _ => ?_
  simp; omega

/-- The cells a sprite touches (44_display.md R88). -/
theorem mem_spriteCells {m : Memory} {i : Word} {x0 y0 : Byte} {n : Nat} {c : Fin 32 × Fin 64} :
    c ∈ spriteCells m i x0 y0 n ↔ ∃ row col, row < n ∧ col < 8 ∧
      (m.read (effAddr i row)).getLsbD (7 - col) = true ∧ c = spriteCell x0 y0 row col := by
  simp only [spriteCells, List.mem_flatMap, List.mem_range, List.mem_map, mem_rowColumns]
  constructor
  · rintro ⟨row, hr, col, ⟨hc, hb⟩, rfl⟩
    exact ⟨row, col, hr, hc, hb, rfl⟩
  · rintro ⟨row, col, hr, hc, hb, rfl⟩
    exact ⟨row, hr, col, ⟨hc, hb⟩, rfl⟩

theorem rowColumns_nodup (b : Byte) : (rowColumns b).Nodup :=
  List.Nodup.filter _ (by decide)

theorem spriteCell_inj {x0 y0 : Byte} {r r' c c' : Nat} (hr : r < 32) (hr' : r' < 32) (hc : c < 8) (hc' : c' < 8)
    (h : spriteCell x0 y0 r c = spriteCell x0 y0 r' c') : r = r' ∧ c = c' := by
  have h1 := congrArg (fun p => p.1.val) h
  have h2 := congrArg (fun p => p.2.val) h
  simp only [spriteCell] at h1 h2
  omega

/-- Within one sprite of at most 32 rows no pixel is drawn twice (44_display.md R90). -/
theorem spriteCells_nodup (m : Memory) (i : Word) (x0 y0 : Byte) (n : Nat) (hn : n ≤ 32) :
    (spriteCells m i x0 y0 n).Nodup := by
  rw [spriteCells, List.nodup_flatMap]
  constructor
  · intro row hrow
    refine (List.nodup_map_iff_inj_on (rowColumns_nodup _)).2 fun c hc c' hc' h => ?_
    exact (spriteCell_inj (r := row) (r' := row) (by have := List.mem_range.1 hrow; omega)
      (by have := List.mem_range.1 hrow; omega) (mem_rowColumns.1 hc).1 (mem_rowColumns.1 hc').1 h).2
  · refine (List.nodup_range (n := n)).imp_of_mem fun {r r'} hr hr' hne => ?_
    simp only [Function.onFun, List.disjoint_left, List.mem_map]
    rintro c ⟨col, hcol, rfl⟩ ⟨col', hcol', h⟩
    have hr := List.mem_range.1 hr
    have hr' := List.mem_range.1 hr'
    exact hne (spriteCell_inj (by omega) (by omega) (mem_rowColumns.1 hcol).1 (mem_rowColumns.1 hcol').1 h.symm).1

end Sys2Proof.Machine
end

