-- ==== Sys2Proof/Laws/PerInstr.lean ====
section
/-!
SUPPORT. One statement for each instruction as syntax: its word carries the fixed bits of its row of
spec/opcode_table.json.
-/

namespace Sys2Proof.Laws.EncodingRow

/-- The encoder's word of the instruction is one its opcode-table row admits, and that row is in the table. -/
def Statement (i : Instr) : Prop := i.row ∈ opRows ∧ i.row.admits (encode i) = true

theorem formatA_fixed (op : BitVec 4) (addr : Addr12) :
    formatA op addr &&& 0xF000 = formatA op 0 := by
  refine BitVec.eq_of_getLsbD_eq fun j hj => ?_
  rw [BitVec.getLsbD_and, formatA, formatA]
  simp only [BitVec.getLsbD_append]
  interval_cases j <;> simp

theorem formatXK_fixed (op : BitVec 4) (x : RegIdx) (kk : Byte) :
    formatXK op x kk &&& 0xF000 = formatXK op 0 0 := by
  refine BitVec.eq_of_getLsbD_eq fun j hj => ?_
  rw [BitVec.getLsbD_and, formatXK, formatXK]
  simp only [BitVec.getLsbD_append]
  interval_cases j <;> simp

theorem formatX_fixed (op : BitVec 4) (x : RegIdx) (kk : Byte) :
    formatXK op x kk &&& 0xF0FF = formatXK op 0 kk := by
  refine BitVec.eq_of_getLsbD_eq fun j hj => ?_
  rw [BitVec.getLsbD_and, formatXK, formatXK]
  simp only [BitVec.getLsbD_append]
  interval_cases j <;> simp

theorem formatXY_fixed (op : BitVec 4) (x y : RegIdx) (n : Fin 16) :
    formatXYN op x y n &&& 0xF00F = formatXYN op 0 0 n := by
  refine BitVec.eq_of_getLsbD_eq fun j hj => ?_
  rw [BitVec.getLsbD_and, formatXYN, formatXYN]
  simp only [BitVec.getLsbD_append]
  interval_cases j <;> simp

theorem formatXYN_fixed (op : BitVec 4) (x y : RegIdx) (n : Fin 16) :
    formatXYN op x y n &&& 0xF000 = formatXYN op 0 0 0 := by
  refine BitVec.eq_of_getLsbD_eq fun j hj => ?_
  rw [BitVec.getLsbD_and, formatXYN, formatXYN]
  simp only [BitVec.getLsbD_append]
  interval_cases j <;> simp

theorem cls : Statement .cls := by unfold Statement; decide
theorem ret : Statement .ret := by unfold Statement; decide
theorem jpAddr (addr : Addr12) : Statement (.jpAddr addr) := by
  refine ⟨by simp only [Instr.row]; decide, ?_⟩
  simp only [Instr.row, OpRow.admits, encode, formatA_fixed]; decide
theorem callAddr (addr : Addr12) : Statement (.callAddr addr) := by
  refine ⟨by simp only [Instr.row]; decide, ?_⟩
  simp only [Instr.row, OpRow.admits, encode, formatA_fixed]; decide
theorem seVxKk (x : RegIdx) (kk : Byte) : Statement (.seVxKk x kk) := by
  refine ⟨by simp only [Instr.row]; decide, ?_⟩
  simp only [Instr.row, OpRow.admits, encode, formatXK_fixed]; decide
theorem sneVxKk (x : RegIdx) (kk : Byte) : Statement (.sneVxKk x kk) := by
  refine ⟨by simp only [Instr.row]; decide, ?_⟩
  simp only [Instr.row, OpRow.admits, encode, formatXK_fixed]; decide
theorem seVxVy (x y : RegIdx) : Statement (.seVxVy x y) := by
  refine ⟨by simp only [Instr.row]; decide, ?_⟩
  simp only [Instr.row, OpRow.admits, encode, formatXY_fixed]; decide
theorem ldVxKk (x : RegIdx) (kk : Byte) : Statement (.ldVxKk x kk) := by
  refine ⟨by simp only [Instr.row]; decide, ?_⟩
  simp only [Instr.row, OpRow.admits, encode, formatXK_fixed]; decide
theorem addVxKk (x : RegIdx) (kk : Byte) : Statement (.addVxKk x kk) := by
  refine ⟨by simp only [Instr.row]; decide, ?_⟩
  simp only [Instr.row, OpRow.admits, encode, formatXK_fixed]; decide
theorem ldVxVy (x y : RegIdx) : Statement (.ldVxVy x y) := by
  refine ⟨by simp only [Instr.row]; decide, ?_⟩
  simp only [Instr.row, OpRow.admits, encode, formatXY_fixed]; decide
theorem orVxVy (x y : RegIdx) : Statement (.orVxVy x y) := by
  refine ⟨by simp only [Instr.row]; decide, ?_⟩
  simp only [Instr.row, OpRow.admits, encode, formatXY_fixed]; decide
theorem andVxVy (x y : RegIdx) : Statement (.andVxVy x y) := by
  refine ⟨by simp only [Instr.row]; decide, ?_⟩
  simp only [Instr.row, OpRow.admits, encode, formatXY_fixed]; decide
theorem xorVxVy (x y : RegIdx) : Statement (.xorVxVy x y) := by
  refine ⟨by simp only [Instr.row]; decide, ?_⟩
  simp only [Instr.row, OpRow.admits, encode, formatXY_fixed]; decide
theorem addVxVy (x y : RegIdx) : Statement (.addVxVy x y) := by
  refine ⟨by simp only [Instr.row]; decide, ?_⟩
  simp only [Instr.row, OpRow.admits, encode, formatXY_fixed]; decide
theorem subVxVy (x y : RegIdx) : Statement (.subVxVy x y) := by
  refine ⟨by simp only [Instr.row]; decide, ?_⟩
  simp only [Instr.row, OpRow.admits, encode, formatXY_fixed]; decide
theorem shrVx (x y : RegIdx) : Statement (.shrVx x y) := by
  refine ⟨by simp only [Instr.row]; decide, ?_⟩
  simp only [Instr.row, OpRow.admits, encode, formatXY_fixed]; decide
theorem subnVxVy (x y : RegIdx) : Statement (.subnVxVy x y) := by
  refine ⟨by simp only [Instr.row]; decide, ?_⟩
  simp only [Instr.row, OpRow.admits, encode, formatXY_fixed]; decide
theorem shlVx (x y : RegIdx) : Statement (.shlVx x y) := by
  refine ⟨by simp only [Instr.row]; decide, ?_⟩
  simp only [Instr.row, OpRow.admits, encode, formatXY_fixed]; decide
theorem sneVxVy (x y : RegIdx) : Statement (.sneVxVy x y) := by
  refine ⟨by simp only [Instr.row]; decide, ?_⟩
  simp only [Instr.row, OpRow.admits, encode, formatXY_fixed]; decide
theorem ldIAddr (addr : Addr12) : Statement (.ldIAddr addr) := by
  refine ⟨by simp only [Instr.row]; decide, ?_⟩
  simp only [Instr.row, OpRow.admits, encode, formatA_fixed]; decide
theorem jpV0Addr (addr : Addr12) : Statement (.jpV0Addr addr) := by
  refine ⟨by simp only [Instr.row]; decide, ?_⟩
  simp only [Instr.row, OpRow.admits, encode, formatA_fixed]; decide
theorem rndVxKk (x : RegIdx) (kk : Byte) : Statement (.rndVxKk x kk) := by
  refine ⟨by simp only [Instr.row]; decide, ?_⟩
  simp only [Instr.row, OpRow.admits, encode, formatXK_fixed]; decide
theorem drwVxVyN (x y : RegIdx) (n : Fin 16) : Statement (.drwVxVyN x y n) := by
  refine ⟨by simp only [Instr.row]; decide, ?_⟩
  simp only [Instr.row, OpRow.admits, encode, formatXYN_fixed]; decide
theorem skpVx (x : RegIdx) : Statement (.skpVx x) := by
  refine ⟨by simp only [Instr.row]; decide, ?_⟩
  simp only [Instr.row, OpRow.admits, encode, formatX_fixed]; decide
theorem sknpVx (x : RegIdx) : Statement (.sknpVx x) := by
  refine ⟨by simp only [Instr.row]; decide, ?_⟩
  simp only [Instr.row, OpRow.admits, encode, formatX_fixed]; decide
theorem ldVxDt (x : RegIdx) : Statement (.ldVxDt x) := by
  refine ⟨by simp only [Instr.row]; decide, ?_⟩
  simp only [Instr.row, OpRow.admits, encode, formatX_fixed]; decide
theorem ldVxK (x : RegIdx) : Statement (.ldVxK x) := by
  refine ⟨by simp only [Instr.row]; decide, ?_⟩
  simp only [Instr.row, OpRow.admits, encode, formatX_fixed]; decide
theorem ldDtVx (x : RegIdx) : Statement (.ldDtVx x) := by
  refine ⟨by simp only [Instr.row]; decide, ?_⟩
  simp only [Instr.row, OpRow.admits, encode, formatX_fixed]; decide
theorem ldStVx (x : RegIdx) : Statement (.ldStVx x) := by
  refine ⟨by simp only [Instr.row]; decide, ?_⟩
  simp only [Instr.row, OpRow.admits, encode, formatX_fixed]; decide
theorem addIVx (x : RegIdx) : Statement (.addIVx x) := by
  refine ⟨by simp only [Instr.row]; decide, ?_⟩
  simp only [Instr.row, OpRow.admits, encode, formatX_fixed]; decide
theorem ldFVx (x : RegIdx) : Statement (.ldFVx x) := by
  refine ⟨by simp only [Instr.row]; decide, ?_⟩
  simp only [Instr.row, OpRow.admits, encode, formatX_fixed]; decide
theorem ldBVx (x : RegIdx) : Statement (.ldBVx x) := by
  refine ⟨by simp only [Instr.row]; decide, ?_⟩
  simp only [Instr.row, OpRow.admits, encode, formatX_fixed]; decide
theorem ldMemIVx (x : RegIdx) : Statement (.ldMemIVx x) := by
  refine ⟨by simp only [Instr.row]; decide, ?_⟩
  simp only [Instr.row, OpRow.admits, encode, formatX_fixed]; decide
theorem ldVxMemI (x : RegIdx) : Statement (.ldVxMemI x) := by
  refine ⟨by simp only [Instr.row]; decide, ?_⟩
  simp only [Instr.row, OpRow.admits, encode, formatX_fixed]; decide

end Sys2Proof.Laws.EncodingRow
end

