-- ==== Sys2Proof/Laws/Step.lean ====
section
/-!
SUPPORT. What one step can do, said once.
-/

namespace Sys2Proof.Machine

theorem tickAfter_eq_next {o : Host.Outcome State Fault Refusal} {t : State} (h : tickAfter o = .next t) :
    ∃ u, o = .next u ∧ t = u.tick := by
  cases o with
  | next u => exact ⟨u, rfl, (Host.Outcome.next.inj h).symm⟩
  | fault r => cases h
  | refused r => cases h

/-- The three ways a cycle ends (40_cycle.md R49, R53, R55): the tick of a faulted core, the execute phase of the
decoded instruction and the tick, the report of an `UNKNOWN` word and the tick. -/
theorem cycle_cases {s t : State} (h : cycle s = .next t) :
    (s.fault ≠ none ∧ t = s.tick) ∨
    (s.fault = none ∧ ∃ i u, decode s.fetchWord = .ok i ∧ exec i s = .next u ∧ t = u.tick) ∨
    (s.fault = none ∧ (∃ e, decode s.fetchWord = .error e) ∧ t = (s.reportUnknown s.fetchWord).tick) := by
  unfold cycle at h
  split at h
  · rename_i r hr
    exact .inl ⟨by simp [hr], (Host.Outcome.next.inj h).symm⟩
  · rename_i hf
    split at h
    · rename_i i hd
      obtain ⟨u, hu, ht⟩ := tickAfter_eq_next h
      exact .inr (.inl ⟨hf, i, u, hd, hu, ht⟩)
    · rename_i e hd
      exact .inr (.inr ⟨hf, ⟨e, hd⟩, (Host.Outcome.next.inj h).symm⟩)

theorem cycle_of_fault {s : State} (h : s.fault ≠ none) : cycle s = .next s.tick := by
  unfold cycle
  split
  · rfl
  · contradiction

theorem cycle_of_ok {s : State} {i : Instr} (hf : s.fault = none) (hd : decode s.fetchWord = .ok i) :
    cycle s = tickAfter (exec i s) := by
  simp [cycle, hf, hd]

theorem cycle_of_error {s : State} {e : DecodeReject} (hf : s.fault = none) (hd : decode s.fetchWord = .error e) :
    cycle s = .next (s.reportUnknown s.fetchWord).tick := by
  simp [cycle, hf, hd]

/-- The state a step starts its cycle from: the host's byte in place, no report. -/
def begun (s : State) : State := s.takeRandom.beginStep (Config.randomByte s.rndIndex)

theorem step_eq_cycle (s : State) : step s = cycle (begun s) := rfl

@[simp] theorem begun_fetchWord (s : State) : (begun s).fetchWord = s.fetchWord := rfl
@[simp] theorem begun_fault (s : State) : (begun s).fault = s.fault := rfl

/-- One more step at the end of a run. -/
theorem run_succ_of_next {M : Host.Core} {n : Nat} {s t : M.State} (h : M.step s = .next t) :
    M.run (n + 1) s = M.run n t := by
  simp [Host.Core.run, h]

end Sys2Proof.Machine
end

