-- ==== Sys2Proof/Tests/Slice0.lean ====
section
/-!
SUPPORT. Tests: one step each on a small state, the expected results from 95_test_vectors.md (the vector's number stands
in the comment) or worked out by hand from the rule named; words written out from 30_encoding.md R42; ill-formed inputs
refused; and, last, for each statement with hypotheses a state and operands that meet them.
-/

namespace Sys2Proof.Tests

open Sys2Proof.Machine

/-! ## Helpers -/

/-- Reset's state with the word where the first step fetches. -/
def prog (w : Nat) : State := State.reset.withFetchWord 16 w

/-- The state a step answers. -/
def after (o : Host.Outcome State Fault Refusal) : Option State :=
  match o with
  | .next s => some s
  | _ => none

/-- Something of the state after one step. -/
def see {α : Type} (s : State) (f : State → α) : Option α := (after (step s)).map f

/-- A state with a byte of memory written. -/
def poke (s : State) (a : Nat) (b : Byte) : State := s.writeMem a b

/-- Pixels as a list of numbers. -/
def row (s : State) (y : Fin 32) (xs : List (Fin 64)) : List Bool := xs.map (s.pixel y)

/-! ## Ill-formed inputs are refused (30_encoding.md R45, 70_reset_and_hazards.md R118, log entry 13) -/

theorem test_wf_unknown_0 : isInstrWord 0x0123 = false := by decide
theorem test_wf_unknown_5 : isInstrWord 0x5121 = false := by decide
theorem test_wf_unknown_8 : isInstrWord 0x8128 = false := by decide
theorem test_wf_unknown_9 : isInstrWord 0x912F = false := by decide
theorem test_wf_unknown_E : isInstrWord 0xE0FF = false := by decide
theorem test_wf_unknown_F : isInstrWord 0xF0FF = false := by decide
theorem test_wf_table_has_34_rows : opRows.length = 34 ∧ opRows.Nodup := by decide
theorem test_wf_image_too_long : imageFits (List.replicate 3585 0) = false := by
  unfold imageFits; rw [List.length_replicate]; decide
theorem test_wf_image_longest : imageFits (List.replicate 3584 0) = true := by
  unfold imageFits; rw [List.length_replicate]; decide
theorem test_wf_memory_order : ¬Memory.wf [(0x301, 1), (0x300, 1)] := by decide
theorem test_wf_memory_repeat : ¬Memory.wf [(0x300, 1), (0x300, 2)] := by decide
theorem test_wf_memory_range : ¬Memory.wf [(4096, 1)] := by decide
theorem test_wf_memory_listed_default : ¬Memory.wf [(0x300, 0)] ∧ ¬Memory.wf [(0x000, 0xF0)] := by decide

/-! ## Decoding: every constructor by a word written out from 30_encoding.md R42 -/

theorem test_decode_control :
    decode 0b0000000011101110 = .ok .ret ∧ decode 0b0001101010111100 = .ok (.jpAddr 0xABC) ∧
    decode 0b0010001100000000 = .ok (.callAddr 0x300) ∧ decode 0b0011000000010010 = .ok (.seVxKk 0 0x12) ∧
    decode 0b0100000000010011 = .ok (.sneVxKk 0 0x13) ∧ decode 0b0101000100100000 = .ok (.seVxVy 1 2) ∧
    decode 0b1001000100100000 = .ok (.sneVxVy 1 2) ∧ decode 0b1011111111111111 = .ok (.jpV0Addr 0xFFF) := by decide

theorem test_decode_alu :
    decode 0b0110101000010010 = .ok (.ldVxKk 0xA 0x12) ∧ decode 0b0111101000000101 = .ok (.addVxKk 0xA 0x05) ∧
    decode 0b1000001100010000 = .ok (.ldVxVy 3 1) ∧ decode 0b1000001100010001 = .ok (.orVxVy 3 1) ∧
    decode 0b1000001100010010 = .ok (.andVxVy 3 1) ∧ decode 0b1000001100010011 = .ok (.xorVxVy 3 1) ∧
    decode 0b1000001100010100 = .ok (.addVxVy 3 1) ∧ decode 0b1000001100010101 = .ok (.subVxVy 3 1) ∧
    decode 0b1000001100010110 = .ok (.shrVx 3 1) ∧ decode 0b1000001100010111 = .ok (.subnVxVy 3 1) ∧
    decode 0b1000001100011110 = .ok (.shlVx 3 1) ∧ decode 0b1100000000001111 = .ok (.rndVxKk 0 0x0F) := by decide

theorem test_decode_display : decode 0b0000000011100000 = .ok .cls ∧
    decode 0b1101000100100011 = .ok (.drwVxVyN 1 2 3) := by decide

theorem test_decode_keys_timers :
    decode 0b1110010110011110 = .ok (.skpVx 5) ∧ decode 0b1110010110100001 = .ok (.sknpVx 5) ∧
    decode 0b1111010000000111 = .ok (.ldVxDt 4) ∧ decode 0b1111010100001010 = .ok (.ldVxK 5) ∧
    decode 0b1111001100010101 = .ok (.ldDtVx 3) ∧ decode 0b1111000000011000 = .ok (.ldStVx 0) := by decide

theorem test_decode_index_memory :
    decode 0b1010000100100011 = .ok (.ldIAddr 0x123) ∧ decode 0b1111111100011110 = .ok (.addIVx 0xF) ∧
    decode 0b1111000000101001 = .ok (.ldFVx 0) ∧ decode 0b1111101000110011 = .ok (.ldBVx 0xA) ∧
    decode 0b1111001001010101 = .ok (.ldMemIVx 2) ∧ decode 0b1111001001100101 = .ok (.ldVxMemI 2) := by decide

/-- One word of each family, encoded: the words of 95_test_vectors.md. -/
theorem test_encode :
    encode .ret = 0x00EE ∧ encode (.callAddr 0x300) = 0x2300 ∧ encode (.addVxKk 0xA 5) = 0x7A05 ∧
    encode (.subVxVy 0xF 1) = 0x8F15 ∧ encode (.drwVxVyN 0 1 5) = 0xD015 ∧ encode (.sknpVx 0) = 0xE0A1 ∧
    encode (.ldMemIVx 0xF) = 0xFF55 := by decide

theorem test_table_word : decodeTableWord 16 0xF265 = some (.ldVxMemI 2) ∧ decodeTableWord 16 0x0123 = none := by decide
theorem test_decode_bytes : decodeBytes [0x6A, 0x12, 0x7A] = .ok (.ldVxKk 0xA 0x12, [0x7A]) ∧
    decodeBytes [0x6A] = .error .truncated := by decide

/-! ## Control flow -/

theorem test_ret_CF6 : see { prog 0x00EE with sp := 1, stack := State.reset.stack.set 0 0x0200 }
    (fun t => (t.sp.val, t.pc, t.stack[0])) = some (0, 0x0202, 0x0200) := by decide
theorem test_ret_underflow_CF7 : see (prog 0x00EE) (fun t => (t.fault, t.pc)) =
    some (some ⟨.stackUnderflow, 0x0200, 0x00EE⟩, 0x0200) := by decide
theorem test_jp_CF1 : see (prog 0x1ABC) State.pc = some 0x0ABC := by decide
theorem test_call_CF4 : see (prog 0x2300) (fun t => (t.stack[0], t.sp.val, t.pc)) = some (0x0200, 1, 0x0300) := by decide
theorem test_call_overflow_CF5 : see { prog 0x2300 with sp := 16 } (fun t => (t.fault, t.pc, t.sp.val)) =
    some (some ⟨.stackOverflow, 0x0200, 0x2300⟩, 0x0200, 16) := by decide
theorem test_se_kk_CF9 : see ((prog 0x3012).writeV 0 0x12) State.pc = some 0x0204 := by decide
theorem test_se_kk_wraps_CF20 : see { (State.reset.setPc 0xFFFC).withFetchWord 16 0x3000 with dt := 0 } State.pc =
    some 0x0000 := by decide
theorem test_sne_kk_CF11 : see ((prog 0x4012).writeV 0 0x12) State.pc = some 0x0202 := by decide
theorem test_sne_kk_CF12 : see ((prog 0x4012).writeV 0 0x13) State.pc = some 0x0204 := by decide
theorem test_se_vy_CF13 : see (((prog 0x5120).writeV 1 7).writeV 2 7) State.pc = some 0x0204 := by decide
theorem test_se_vy_CF14 : see (((prog 0x5120).writeV 1 7).writeV 2 8) State.pc = some 0x0202 := by decide
theorem test_sne_vy_CF16 : see (((prog 0x9120).writeV 1 7).writeV 2 8) State.pc = some 0x0204 := by decide
theorem test_sne_vy_CF17 : see (prog 0x9110) State.pc = some 0x0202 := by decide
theorem test_jp_v0_CF19 : see ((prog 0xBFFF).writeV 0 0xFF) State.pc = some 0x10FE := by decide

/-! ## Register loads and the arithmetic-logic unit (VF = 0x55 at the start, so that a kept VF shows) -/

/-- `V0`, `V1` and a marked `VF`. -/
def alu (w : Nat) (v0 v1 : Byte) : State := (((prog w).writeV 15 0x55).writeV 0 v0).writeV 1 v1

theorem test_ld_kk_AL1 : see (alu 0x6A12 0 0) (fun t => (t.readV 0xA, t.readV 15)) = some (0x12, 0x55) := by decide
theorem test_add_kk_AL3 : see (alu 0x7001 0xFF 0) (fun t => (t.readV 0, t.readV 15)) = some (0x00, 0x55) := by decide
theorem test_ld_vy_AL6 : see (alu 0x8010 0 0x33) (fun t => t.readV 0) = some 0x33 := by decide
theorem test_or_AL7 : see (alu 0x8011 0x0F 0xF0) (fun t => (t.readV 0, t.readV 15)) = some (0xFF, 0x55) := by decide
theorem test_and_AL8 : see (alu 0x8012 0x0F 0xF0) (fun t => (t.readV 0, t.readV 15)) = some (0x00, 0x55) := by decide
theorem test_xor_AL9 : see (alu 0x8013 0x0F 0xFF) (fun t => (t.readV 0, t.readV 15)) = some (0xF0, 0x55) := by decide
theorem test_add_AL12 : see (alu 0x8014 0x80 0x80) (fun t => (t.readV 0, t.readV 15)) = some (0x00, 1) := by decide
theorem test_add_vf_AL13 : see ((alu 0x8F14 0 1).writeV 15 0xFF) (fun t => t.readV 15) = some 1 := by decide
theorem test_sub_AL17 : see (alu 0x8015 0x10 0x01) (fun t => (t.readV 0, t.readV 15)) = some (0x0F, 1) := by decide
theorem test_sub_borrow_S4 : see (alu 0x8015 0x01 0x02) (fun t => (t.readV 0, t.readV 15)) = some (0xFF, 0) := by decide
theorem test_shr_AL24 : see (alu 0x8016 0x02 0xFF) (fun t => (t.readV 0, t.readV 15)) = some (0x01, 0) := by decide
theorem test_shr_vf_AL25 : see ((alu 0x8F06 0 0).writeV 15 0x03) (fun t => t.readV 15) = some 1 := by decide
theorem test_subn_AL26 : see (alu 0x8017 0x01 0x02) (fun t => (t.readV 0, t.readV 15)) = some (0x01, 1) := by decide
theorem test_subn_AL27 : see (alu 0x8017 0x02 0x01) (fun t => (t.readV 0, t.readV 15)) = some (0xFF, 0) := by decide
theorem test_shl_AL30 : see (alu 0x800E 0x81 0) (fun t => (t.readV 0, t.readV 15)) = some (0x02, 1) := by decide
theorem test_shl_vf_AL33 : see ((alu 0x8F0E 0 0).writeV 15 0x80) (fun t => t.readV 15) = some 1 := by decide
theorem test_rnd_AL34 : (after (stepWith 0xAB (prog 0xC00F))).map (fun t => t.readV 0) = some 0x0B := by decide
theorem test_rnd_AL35 : (after (stepWith 0x37 (prog 0xC0FF))).map (fun t => t.readV 0) = some 0x37 := by decide

/-! ## Index register and memory -/

theorem test_ld_i_IM2 : see (prog 0xAFFF) State.i = some 0x0FFF := by decide
theorem test_add_i_IM4 : see (((prog 0xF01E).setI 0x0FFF).writeV 0 1) (fun t => (t.i, t.readV 15)) = some (0x1000, 1) := by
  decide
theorem test_add_i_IM7 : see (((prog 0xFF1E).setI 0x0100).writeV 15 5) (fun t => (t.i, t.readV 15)) = some (0x0105, 0) := by
  decide
theorem test_ld_f_IM10 : see ((prog 0xF029).writeV 0 0xFF) State.i = some 0x04FB := by decide
theorem test_bcd_IM15 : see (((prog 0xF033).setI 0x0FFF).writeV 0 0x80)
    (fun t => (t.readMem 0xFFF, t.readMem 0, t.readMem 1, t.i)) = some (1, 2, 8, 0x0FFF) := by decide
theorem test_store_IM18 : see ((((prog 0xF155).setI 0xFFFF).writeV 0 0x11).writeV 1 0x22)
    (fun t => (t.readMem 0xFFF, t.readMem 0, t.readMem 1, t.i)) = some (0x11, 0x22, 0x90, 0x0001) := by decide
theorem test_load_IM19 : see (poke (poke (poke (((prog 0xF265).setI 0x300).writeV 3 0x99) 0x300 1) 0x301 2) 0x302 3)
    (fun t => ([t.readV 0, t.readV 1, t.readV 2, t.readV 3], t.i)) = some ([1, 2, 3, 0x99], 0x0303) := by decide
theorem test_load_IM20 : see (poke ((prog 0xFF65).setI 0x300) 0x30F 0x77) (fun t => (t.readV 0xE, t.readV 0xF, t.i)) =
    some (0, 0x77, 0x0310) := by decide

/-! ## Display -/

theorem test_cls_DP1 : see { prog 0x00E0 with fb := flipPixel State.reset.fb 3 5, redraw := false }
    (fun t => (t.pixel 3 5, t.redraw)) = some (false, true) := by decide
/-- DP4: the sprite wraps at the right edge and at the bottom edge. -/
theorem test_drw_wraps_DP4 : see (poke (poke ((((prog 0xD122).setI 0x300).writeV 1 0x3E).writeV 2 0x1F) 0x300 0xC0) 0x301 0x80)
    (fun t => (row t 31 [61, 62, 63, 0], row t 0 [61, 62, 63, 0], t.readV 15)) =
    some ([false, true, true, false], [false, true, false, false], 0) := by decide
/-- DP10: the column from the old `VF`, the collision flag over it. -/
theorem test_drw_collides_DP10 : see (poke { ((prog 0xDF11).setI 0x300).writeV 15 8 with
    fb := flipPixel State.reset.fb 0 8 } 0x300 0x80) (fun t => (t.pixel 0 8, t.readV 15)) = some (false, 1) := by decide

/-! ## Keys and timers -/

/-- `KEY[3]` pressed. -/
def key3 : Vector Bool 16 := State.reset.key.set 3 true

theorem test_skp_KT1 : see { (prog 0xE09E).writeV 0 3 with key := key3 } State.pc = some 0x0204 := by decide
theorem test_skp_range_KT3 : see ((prog 0xE09E).writeV 0 0x10) (fun t => (t.fault, t.pc)) =
    some (some ⟨.keyIndexRange, 0x0200, 0xE09E⟩, 0x0200) := by decide
theorem test_sknp_KT4 : see { (prog 0xE0A1).writeV 0 3 with key := key3 } State.pc = some 0x0202 := by decide
theorem test_sknp_range_KT6 : see ((prog 0xE0A1).writeV 0 0xFF) (fun t => (t.fault, t.pc)) =
    some (some ⟨.keyIndexRange, 0x0200, 0xE0A1⟩, 0x0200) := by decide
theorem test_ld_dt_read_KT11 : see { prog 0xF407 with dt := 4 } (fun t => (t.readV 4, t.dt)) = some (4, 3) := by decide
theorem test_wait_KT7 : see { (prog 0xF50A).writeV 5 0x77 with dt := 5 } (fun t => (t.pc, t.readV 5, t.dt)) =
    some (0x0200, 0x77, 4) := by decide
theorem test_wait_KT9 : see { prog 0xF50A with key := (State.reset.key.set 2 true).set 9 true }
    (fun t => (t.readV 5, t.pc)) = some (9, 0x0202) := by decide
theorem test_ld_dt_KT13 : see ((prog 0xF315).writeV 3 5) State.dt = some 4 := by decide
theorem test_ld_st_KT15 : see ((prog 0xF018).writeV 0 2) State.st = some 1 := by decide

/-! ## The step cycle, Reset and Load -/

theorem test_unknown_DC6 : see { prog 0x0123 with dt := 3 } (fun t => (t.report, t.pc, t.dt)) =
    some (some ⟨0x0123, 0x0200⟩, 0x0202, 2) := by decide
theorem test_faulted_KT17 : see { State.reset with fault := some ⟨.stackUnderflow, 0x0200, 0x00EE⟩, dt := 2 }
    (fun t => (t.dt, t.st, t.pc, t.fault)) = some (1, 0, 0x0200, some ⟨.stackUnderflow, 0x0200, 0x00EE⟩) := by decide
theorem test_tick_KT16 : see { prog 0x1200 with st := 0xFF, dt := 1 } (fun t => (t.dt, t.st)) = some (0, 0xFE) := by decide
/-- DC7: an odd `PC` at the end of memory takes its second byte from the font at 0x000. -/
theorem test_fetch_wraps_DC7 : see (poke (State.reset.setPc 0x0FFF) 0xFFF 0x60) (fun t => (t.readV 0, t.pc)) =
    some (0xF0, 0x1001) := by decide
theorem test_reset_RL1 : [0, 1, 2, 3, 4, 0x4B, 0x4C, 0x4D, 0x4E, 0x4F, 0x50].map State.reset.readMem =
    [0xF0, 0x90, 0x90, 0x90, 0xF0, 0xF0, 0x80, 0xF0, 0x80, 0x80, 0] := by decide
theorem test_load_RL4 : (fun r : LoadResult × State => (r.1, [0x200, 0x201, 0x202, 0x203].map r.2.readMem))
    (State.reset.hostLoad [0x12, 0x34, 0x56]) = (.ok, [0x12, 0x34, 0x56, 0x00]) := by decide
theorem test_write_default_removes_the_cell : (Memory.write (Memory.write [] 0x300 7) 0x300 0) = [] ∧
    (Memory.write [] 0x1000 1) = [(0, 1)] := by decide
theorem test_parameters_R5 : Config.fontTable.length = 80 ∧ Config.memSize = 4096 ∧ Config.programBase = 512 ∧
    Config.maxImage = 3584 := by decide

/-! ## Witnesses: states and operands that meet the hypotheses of the statements -/

theorem witness_decoded_word : decode (0x8F15 : Word) = .ok (.subVxVy 15 1) := by decide
theorem witness_table_words : isInstrWord 0x00EE = true ∧ isInstrWord 0xFF65 = true ∧ isInstrWord 0xFFFF = false := by decide
theorem witness_canonical_memories : Memory.wf [(0x300, 7)] ∧ Memory.wf [(0x000, 1), (0xFFF, 2)] ∧
    (∀ a, Memory.read [(0x300, 7)] a = Memory.read [(0x300, 7)] a) := ⟨by decide, by decide, fun _ => rfl⟩

/-- A running core at an instruction that decodes (StepRunsTheDecodedInstruction, EveryStepTicksBothTimers). -/
theorem witness_running : (prog 0x8014).fault = none ∧ decode (prog 0x8014).fetchWord = .ok (.addVxVy 0 1) ∧
    (∃ t, exec (.addVxVy 0 1) ((prog 0x8014).beginStep 0) = .next t) ∧
    (∃ t, exec (.addVxVy 0 1) ((prog 0x8014).takeRandom.beginStep (Config.randomByte (prog 0x8014).rndIndex)) = .next t) ∧
    ∃ t, step (prog 0x8014) = .next t := ⟨rfl, by decide, ⟨_, rfl⟩, ⟨_, rfl⟩, ⟨_, rfl⟩⟩

theorem witness_unknown_word : (prog 0x0123).fault = none ∧ isInstrWord (prog 0x0123).fetchWord = false ∧
    (prog 0x0123).fetchWord = 0x0123 := by decide

/-- A faulted core with its timers running. -/
def faulted : State := { prog 0x00EE with fault := some ⟨.stackUnderflow, 0x0200, 0x00EE⟩, dt := 2, st := 5 }

theorem witness_faulted : faulted.fault ≠ none := by decide
theorem witness_reset_clears_fault : faulted.fault ≠ none ∧
    (∃ t, hostMove .reset faulted = .next t ∧ t.fault ≠ faulted.fault) ∧
    ∃ t, hostMove (.load [0x12]) faulted = .next t ∧ t.fault ≠ faulted.fault :=
  ⟨by decide, ⟨_, rfl, by decide⟩, ⟨_, rfl, by decide⟩⟩

/-- Each clause of FaultsFollowTheTableAndWriteNothing, and of the statements of CALL, RET, SKP and SKNP, at its
boundary; `SP` 15 and 1 and key 0xF still execute. -/
theorem witness_faulting_steps :
    (decode (prog 0x2300).fetchWord = .ok (.callAddr 0x300) ∧ ({ prog 0x2300 with sp := 16 }).sp.val = 16 ∧
      see { prog 0x2300 with sp := 15 } State.fault = some none) ∧
    (decode (prog 0x00EE).fetchWord = .ok .ret ∧ (prog 0x00EE).sp.val = 0 ∧
      see { prog 0x00EE with sp := 1 } State.fault = some none) ∧
    (decode (prog 0xE09E).fetchWord = .ok (.skpVx 0) ∧ 0x0F < (((prog 0xE09E).writeV 0 0x10).readV 0).toNat ∧
      see ((prog 0xE09E).writeV 0 0x0F) State.fault = some none) ∧
    (decode (prog 0xE0A1).fetchWord = .ok (.sknpVx 0) ∧ 0x0F < (((prog 0xE0A1).writeV 0 0x10).readV 0).toNat ∧
      see ((prog 0xE0A1).writeV 0 0x0F) State.fault = some none) ∧
    (see (prog 0x00EE) State.fault ≠ some none) := by decide

theorem witness_reports : see (prog 0x0123) State.report = some (some ⟨0x0123, 0x0200⟩) ∧
    see (prog 0x6A12) State.report = some none := by decide

/-- A step that runs Fx15, one that runs Fx18, and one that runs neither. -/
theorem witness_timer_writes : decode (prog 0xF315).fetchWord = .ok (.ldDtVx 3) ∧ (prog 0xF315).fault = none ∧
    decode (prog 0xF018).fetchWord = .ok (.ldStVx 0) ∧ decode (prog 0x1200).fetchWord = .ok (.jpAddr 0x200) := by decide

/-- The premise of DelayTimerCountsStepsWithoutFx15, for one step of the self-jump with `DT = 3`. -/
theorem witness_no_fx15 : ∀ k t x, k < 1 → Host.Core.run Sys2Proof.core k { prog 0x1200 with dt := 3 } = .next t →
    t.fault = none → decode t.fetchWord ≠ .ok (.ldDtVx x) := by
  intro k t x hk h _ hd
  obtain rfl : k = 0 := by omega
  cases h
  have : decode ({ prog 0x1200 with dt := 3 } : State).fetchWord = .ok (.jpAddr 0x200) := by decide
  rw [this] at hd
  cases hd

theorem witness_waiting : (prog 0xF50A).Waiting :=
  ⟨rfl, ⟨5, by decide⟩, by decide⟩

theorem witness_screen_steps :
    (∃ t, step { prog 0x00E0 with redraw := false } = .next t ∧ t.redraw ≠ ({ prog 0x00E0 with redraw := false }).redraw) ∧
    decode (prog 0x00E0).fetchWord = .ok .cls ∧ decode (prog 0xD011).fetchWord = .ok (.drwVxVyN 0 1 1) ∧
    see (poke ((prog 0xD011).setI 0x300) 0x300 0x80) (fun t => t.pixel 0 0) = some true :=
  ⟨⟨_, rfl, by decide⟩, by decide, by decide, by decide⟩

theorem witness_stack_steps :
    (see (prog 0x2300) (fun t => (t.sp.val, t.stack[0])) = some (1, 0x0200) ∧ (prog 0x2300).stack[0] = 0) ∧
    see { prog 0x00EE with sp := 1 } (fun t => t.sp.val) = some 0 := by decide

theorem witness_memory_steps : (∃ t, step (((prog 0xF033).setI 0x300).writeV 0 9) = .next t ∧
    t.readMem 0x302 ≠ (((prog 0xF033).setI 0x300).writeV 0 9).readMem 0x302) ∧
    ∃ t, step (((prog 0xF055).setI 0x300).writeV 0 9) = .next t ∧
      t.readMem 0x300 ≠ (((prog 0xF055).setI 0x300).writeV 0 9).readMem 0x300 :=
  ⟨⟨_, rfl, by decide⟩, ⟨_, rfl, by decide⟩⟩

theorem witness_flag_changes : (∃ t, exec (.addVxVy 0 1) ((prog 0x8014).writeV 15 5) = .next t ∧
    t.readV 15 ≠ ((prog 0x8014).writeV 15 5).readV 15) ∧
    ∃ t, exec (.ldVxKk 15 1) (prog 0x6F01) = .next t ∧ t.readV 15 ≠ (prog 0x6F01).readV 15 :=
  ⟨⟨_, rfl, by decide⟩, ⟨_, rfl, by decide⟩⟩

/-- The invariant holds of a faulted state too, so keeping it says something there. -/
theorem witness_invariant : (prog 0x6A12).Inv ∧ faulted.Inv ∧ (∃ t, step faulted = .next t) ∧
    Reachable State.reset := by
  refine ⟨⟨by decide, fun r hr => by cases hr⟩, ⟨by decide, fun r hr => ?_⟩, ⟨_, rfl⟩, .reset⟩
  cases hr
  exact ⟨rfl, by decide, by decide, by decide⟩

theorem witness_call_and_ret : ({ State.reset with sp := 15 } : State).sp.val < 16 ∧
    0 < ({ State.reset with sp := 1 } : State).sp.val ∧ State.reset.sp.val = 0 ∧
    ({ State.reset with sp := 16 } : State).sp.val = 16 := by decide

theorem witness_store_fetch : 0 < (1 : RegIdx).val ∧
    (0x1300 : Word).toNat % 4096 = ((State.reset.setI 0x300).i).toNat % 4096 := by decide

/-- A sprite that covers a set pixel, one that covers a clear pixel, and a pixel it does not cover. -/
theorem witness_sprite : SpriteCovers (poke (State.reset.setI 0x300) 0x300 0x80) 0 1 1 0 0 ∧
    ¬SpriteCovers (poke (State.reset.setI 0x300) 0x300 0x80) 0 1 1 0 1 ∧
    (poke (State.reset.setI 0x300) 0x300 0x80).pixel 0 0 = false ∧
    ({ poke (State.reset.setI 0x300) 0x300 0x80 with fb := flipPixel blankScreen 0 0 } : State).pixel 0 0 = true := by
  refine ⟨⟨0, 0, by decide, by decide, by decide, by decide, by decide⟩, ?_, by decide, by decide⟩
  rintro ⟨r, c, hr, hc, _, hx, hb⟩
  obtain rfl : r = 0 := by omega
  have : c = 1 := by
    have h : ((poke (State.reset.setI 0x300) 0x300 0x80).readV 0).toNat = 0 := by decide
    rw [h] at hx
    simp at hx
    omega
  subst this
  exact absurd hb (by decide)

theorem witness_draw_twice : (0 : RegIdx) ≠ 15 ∧ (1 : RegIdx) ≠ 15 := by decide

theorem witness_key_skips : ((State.reset.writeV 0 0x0F).readV 0).toNat ≤ 0xF ∧
    ((State.reset.writeV 0 0x10).readV 0).toNat > 0xF := by decide

theorem witness_key_wait : (∀ j : Fin 16, (3 : Fin 16) < j → key3[j] = false) ∧ key3[(3 : Fin 16)] = true ∧
    (∀ k : Fin 16, State.reset.key[k] = false) := by decide

theorem witness_timer_and_random_steps : (prog 0xF407).fault = none ∧ decode (prog 0xF407).fetchWord = .ok (.ldVxDt 4) ∧
    decode (prog 0xC00F).fetchWord = .ok (.rndVxKk 0 0x0F) ∧ (prog 0xC00F).fault = none := by decide

/-- Both clauses of LoadCopiesTheImageAfterReset, and its two ranges of untouched addresses. -/
theorem witness_load : 3584 < (List.replicate 3585 (0 : Byte)).length ∧ (List.replicate 3584 (0 : Byte)).length ≤ 3584 ∧
    [0x12, 0x34, 0x56][2]? = some 0x56 ∧ 0x1FF < 0x200 ∧ 0x200 + [0x12, 0x34, 0x56].length ≤ 0x203 := by
  refine ⟨?_, Nat.le_of_eq List.length_replicate, by decide, by decide, by decide⟩
  rw [List.length_replicate]; decide

end Sys2Proof.Tests
end

section
/-!
PROOFS. The encoder undoes the decoder (30_encoding.md R44, R46): each format rebuilds a word from its fields, and each
branch of the case tree names the fields it fixed.
-/

namespace Sys2Proof

/-! ## A format rebuilds a word from its fields (30_encoding.md R41, R42) -/

section Formats

variable {w : Word} {op : BitVec 4}

theorem formatA_fields (ho : (fieldOp w).val = op.toNat) : formatA op (fieldAddr w) = w := by
  apply BitVec.eq_of_toNat_eq
  rw [fieldOp_val] at ho
  rw [formatA_toNat, fieldAddr_toNat]
  omega

theorem formatXK_fields {kk : Byte} (ho : (fieldOp w).val = op.toNat) (hk : (fieldKk w).toNat = kk.toNat) :
    formatXK op (fieldX w) kk = w := by
  apply BitVec.eq_of_toNat_eq
  rw [fieldOp_val] at ho
  rw [fieldKk_toNat] at hk
  rw [formatXK_toNat, fieldX_val]
  omega

theorem formatXYN_fields {n : Fin 16} (ho : (fieldOp w).val = op.toNat) (hn : (fieldN w).val = n.val) :
    formatXYN op (fieldX w) (fieldY w) n = w := by
  apply BitVec.eq_of_toNat_eq
  rw [fieldOp_val] at ho
  rw [fieldN_val] at hn
  rw [formatXYN_toNat, fieldX_val, fieldY_val]
  omega

end Formats

/-! ## The families of the case tree (30_encoding.md R44) -/

section Families

variable {w : Word} {i : Instr}

theorem encode_of_decode0 (h : decode0 w = .ok i) : encode i = w := by
  unfold decode0 at h
  split at h
  · next hw => cases h; exact hw.symm
  · split at h
    · next hw => cases h; exact hw.symm
    · cases h

theorem encode_of_decode8 (ho : (fieldOp w).val = 0x8) (h : decode8 w = .ok i) : encode i = w := by
  unfold decode8 at h
  split at h <;> cases h <;> exact formatXYN_fields ho ‹_›

theorem encode_of_decodeE (ho : (fieldOp w).val = 0xE) (h : decodeE w = .ok i) : encode i = w := by
  unfold decodeE at h
  split at h <;> cases h <;> exact formatXK_fields ho ‹_›

theorem encode_of_decodeF (ho : (fieldOp w).val = 0xF) (h : decodeF w = .ok i) : encode i = w := by
  unfold decodeF at h
  split at h <;> cases h <;> exact formatXK_fields ho ‹_›

/-- A word that decodes is the one its instruction encodes to. Cases `h_1` to `h_16` of the tree are the high nibbles 0
to F, and `h_17` is no nibble. -/
theorem encode_of_decode (h : decode w = .ok i) : encode i = w := by
  unfold decode at h
  split at h
  case h_1 => exact encode_of_decode0 h
  case h_9 ho => exact encode_of_decode8 ho h
  case h_15 ho => exact encode_of_decodeE ho h
  case h_16 ho => exact encode_of_decodeF ho h
  case h_17 => cases h
  case h_6 | h_10 =>
    split at h
    · cases h; exact formatXYN_fields ‹_› ‹_›
    · cases h
  case h_14 ho => cases h; exact formatXYN_fields ho rfl
  case h_2 ho | h_3 ho | h_11 ho | h_12 ho => cases h; exact formatA_fields ho
  all_goals
    cases h
    exact formatXK_fields ‹_› rfl

end Families

end Sys2Proof
end

section
/-!
PROOFS. What the execute phase can change, said once: the pieces of state each instruction may write, that it keeps
every other piece, when it faults, and that it keeps memory canonical; then the same of a whole step.
-/

namespace Sys2Proof.Machine

/-! ## Pieces kept by the updates of the state -/

/-- The piece is in `t` as it is in `s`, memory even as the same list of cells. -/
def KeepsPiece (s t : State) : Piece → Prop
  | .mem => t.mem = s.mem
  | p => SamePiece s t p

theorem KeepsPiece.samePiece {s t : State} {p : Piece} (h : KeepsPiece s t p) : SamePiece s t p := by
  cases p
  case mem => exact fun a => congrArg (·.read a) h
  all_goals exact h

theorem KeepsPiece.refl (s : State) (p : Piece) : KeepsPiece s s p := by
  cases p <;> simp [KeepsPiece, SamePiece]

theorem KeepsPiece.trans {s t u : State} {p : Piece} (h : KeepsPiece s t p) (h' : KeepsPiece t u p) :
    KeepsPiece s u p := by
  cases p <;> simp_all [KeepsPiece, SamePiece]

section Updates

variable {s t : State} {p : Piece}

@[simp] theorem keepsPiece_writeV {x : RegIdx} {b : Byte} : KeepsPiece s (t.writeV x b) p ↔ KeepsPiece s t p := by
  cases p <;> rfl

@[simp] theorem keepsPiece_loadRegs {ks : List RegIdx} : KeepsPiece s (t.loadRegs ks) p ↔ KeepsPiece s t p := by
  cases p <;> rfl

@[simp] theorem keepsPiece_setPc {w : Word} : KeepsPiece s (t.setPc w) p ↔ KeepsPiece s t p := by
  cases p <;> rfl

theorem keepsPiece_setI {w : Word} (hp : p ≠ .i) : KeepsPiece s (t.setI w) p ↔ KeepsPiece s t p := by
  cases p
  case i => contradiction
  all_goals rfl

theorem keepsPiece_setDt {b : Byte} (hp : p ≠ .dt) : KeepsPiece s (t.setDt b) p ↔ KeepsPiece s t p := by
  cases p
  case dt => contradiction
  all_goals rfl

theorem keepsPiece_setSt {b : Byte} (hp : p ≠ .st) : KeepsPiece s (t.setSt b) p ↔ KeepsPiece s t p := by
  cases p
  case st => contradiction
  all_goals rfl

theorem keepsPiece_writeMemBytes {a : Nat} {bs : List Byte} (hp : p ≠ .mem) :
    KeepsPiece s (t.writeMemBytes a bs) p ↔ KeepsPiece s t p := by
  cases p
  case mem => contradiction
  all_goals rfl

theorem keepsPiece_setScreen {fb : Screen} (hp : p ≠ .screen) :
    KeepsPiece s (t.setScreen fb) p ↔ KeepsPiece s t p := by
  cases p
  case screen => contradiction
  all_goals rfl

theorem keepsPiece_takeFault {c : FaultCause} {w : Word} (hp : p ≠ .fault) :
    KeepsPiece s (t.takeFault c w) p ↔ KeepsPiece s t p := by
  cases p
  case fault => contradiction
  all_goals rfl

theorem keepsPiece_stack {st : Vector Word 16} {sp : Fin 17} (hp : p ≠ .stack) :
    KeepsPiece s { t with stack := st, sp := sp } p ↔ KeepsPiece s t p := by
  cases p
  case stack => contradiction
  all_goals rfl

theorem keepsPiece_reportUnknown {w : Word} (hp : p ≠ .report) :
    KeepsPiece s (t.reportUnknown w) p ↔ KeepsPiece s t p := by
  cases p
  case report => contradiction
  all_goals rfl

theorem keepsPiece_tick (hdt : p ≠ .dt) (hst : p ≠ .st) : KeepsPiece s t.tick p ↔ KeepsPiece s t p := by
  cases p
  case dt | st => contradiction
  all_goals rfl

theorem keepsPiece_begun (hrnd : p ≠ .random) (hrep : p ≠ .report) :
    KeepsPiece s (begun t) p ↔ KeepsPiece s t p := by
  cases p
  case random | report => contradiction
  all_goals rfl

end Updates

/-! ## The execute phase -/

/-- The pieces of state the execute phase of an instruction may write (41 to 45 of spec/). -/
def piecesWritten : Instr → List Piece
  | .cls | .drwVxVyN _ _ _ => [.screen]
  | .ret | .callAddr _ => [.stack, .fault]
  | .skpVx _ | .sknpVx _ => [.fault]
  | .ldDtVx _ => [.dt]
  | .ldStVx _ => [.st]
  | .ldIAddr _ | .addIVx _ | .ldFVx _ | .ldVxMemI _ => [.i]
  | .ldBVx _ => [.mem]
  | .ldMemIVx _ => [.mem, .i]
  | _ => []

/-- The condition of 60_exceptions.md R97 under which an instruction raises a fault of the cause. -/
def FaultCondition (s : State) (i : Instr) : FaultCause → Prop
  | .stackOverflow => s.sp.val = 16 ∧ ∃ addr, i = .callAddr addr
  | .stackUnderflow => s.sp.val = 0 ∧ i = .ret
  | .keyIndexRange => ∃ x, (i = .skpVx x ∨ i = .sknpVx x) ∧ 15 < (s.readV x).toNat

/-- The execute phase faults: it records a cause whose condition holds, and writes nothing else. -/
def FaultsAt (i : Instr) (s u : State) : Prop := ∃ c, FaultCondition s i c ∧ u = s.takeFault c (encode i)

/-- RET pops, or faults when no entry is in use (41_control_flow.md R58). -/
theorem exec_ret_cases {s u : State} (h : exec .ret s = .next u) :
    (∃ w sp, u = ({ s with sp := sp } : State).setPc w) ∨ FaultsAt .ret s u := by
  change execRet s = _ at h
  unfold execRet at h
  split at h <;> obtain rfl := Host.Outcome.next.inj h
  · next w s' hpop =>
    obtain ⟨_, _, rfl⟩ := State.pop_eq_some hpop
    exact .inl ⟨_, _, rfl⟩
  · next hpop => exact .inr ⟨.stackUnderflow, ⟨State.pop_eq_none.1 hpop, rfl⟩, rfl⟩

/-- CALL pushes, or faults when 16 entries are in use (41_control_flow.md R60). -/
theorem exec_callAddr_cases {addr : Addr12} {s u : State} (h : exec (.callAddr addr) s = .next u) :
    (∃ w stack sp, u = ({ s with stack := stack, sp := sp } : State).setPc w) ∨ FaultsAt (.callAddr addr) s u := by
  change execCallAddr addr s = _ at h
  unfold execCallAddr at h
  split at h <;> obtain rfl := Host.Outcome.next.inj h
  · next s' hpush =>
    obtain ⟨_, rfl⟩ := State.push_eq_some hpush
    exact .inl ⟨_, _, _, rfl⟩
  · next hpush => exact .inr ⟨.stackOverflow, ⟨State.push_eq_none.1 hpush, addr, rfl⟩, rfl⟩

/-- SKP moves `PC`, or faults on a key index above 0xF (45_timers_input.md R91). -/
theorem exec_skpVx_cases {x : RegIdx} {s u : State} (h : exec (.skpVx x) s = .next u) :
    (∃ w, u = s.setPc w) ∨ FaultsAt (.skpVx x) s u := by
  change execSkpVx x s = _ at h
  unfold execSkpVx at h
  split at h <;> obtain rfl := Host.Outcome.next.inj h
  · exact .inl ⟨_, rfl⟩
  · next hk => exact .inr ⟨.keyIndexRange, ⟨x, .inl rfl, keyIndex_eq_none.1 hk⟩, rfl⟩

/-- SKNP moves `PC`, or faults on a key index above 0xF (45_timers_input.md R92). -/
theorem exec_sknpVx_cases {x : RegIdx} {s u : State} (h : exec (.sknpVx x) s = .next u) :
    (∃ w, u = s.setPc w) ∨ FaultsAt (.sknpVx x) s u := by
  change execSknpVx x s = _ at h
  unfold execSknpVx at h
  split at h <;> obtain rfl := Host.Outcome.next.inj h
  · exact .inl ⟨_, rfl⟩
  · next hk => exact .inr ⟨.keyIndexRange, ⟨x, .inr rfl, keyIndex_eq_none.1 hk⟩, rfl⟩

/-- Fx0A takes a key and moves on, or changes nothing (45_timers_input.md R94). -/
theorem exec_ldVxK_cases {x : RegIdx} {s u : State} (h : exec (.ldVxK x) s = .next u) :
    (∃ b, u = (s.writeV x b).advance) ∨ u = s := by
  change execLdVxK x s = _ at h
  unfold execLdVxK at h
  split at h <;> obtain rfl := Host.Outcome.next.inj h
  · exact .inl ⟨_, rfl⟩
  · exact .inr rfl

theorem FaultsAt.keeps {i : Instr} {s u : State} {p : Piece} (h : FaultsAt i s u) (hp : p ≠ .fault) :
    KeepsPiece s u p := by
  obtain ⟨c, _, rfl⟩ := h
  exact (keepsPiece_takeFault hp).2 (.refl s p)

/-- The frame of the execute phase: a piece outside `piecesWritten` is kept. -/
theorem exec_keeps {i : Instr} {s u : State} {p : Piece} (h : exec i s = .next u) (hp : p ∉ piecesWritten i) :
    KeepsPiece s u p := by
  have hrefl := KeepsPiece.refl s p
  cases i <;> simp only [piecesWritten, List.mem_cons, List.not_mem_nil, or_false, not_or] at hp
  case ret =>
    obtain ⟨hstack, hfault⟩ := hp
    rcases exec_ret_cases h with ⟨w, sp, rfl⟩ | hf
    · exact keepsPiece_setPc.2 ((keepsPiece_stack hstack).2 hrefl)
    · exact hf.keeps hfault
  case callAddr =>
    obtain ⟨hstack, hfault⟩ := hp
    rcases exec_callAddr_cases h with ⟨w, stack, sp, rfl⟩ | hf
    · exact keepsPiece_setPc.2 ((keepsPiece_stack hstack).2 hrefl)
    · exact hf.keeps hfault
  case skpVx =>
    rcases exec_skpVx_cases h with ⟨w, rfl⟩ | hf
    · exact keepsPiece_setPc.2 hrefl
    · exact hf.keeps hp
  case sknpVx =>
    rcases exec_sknpVx_cases h with ⟨w, rfl⟩ | hf
    · exact keepsPiece_setPc.2 hrefl
    · exact hf.keeps hp
  case ldVxK => rcases exec_ldVxK_cases h with ⟨b, rfl⟩ | rfl <;> simpa
  all_goals obtain rfl := Host.Outcome.next.inj h
  case cls | drwVxVyN => simpa [keepsPiece_setScreen hp]
  case ldDtVx => simpa [keepsPiece_setDt hp]
  case ldStVx => simpa [keepsPiece_setSt hp]
  case ldIAddr | addIVx | ldFVx | ldVxMemI => simpa [keepsPiece_setI hp]
  case ldBVx => simpa [keepsPiece_writeMemBytes hp]
  case ldMemIVx => simpa [keepsPiece_setI hp.2, keepsPiece_writeMemBytes hp.1]
  all_goals simpa

/-! ## Which instructions write a piece -/

theorem screen_mem_piecesWritten {i : Instr} :
    .screen ∈ piecesWritten i ↔ i = .cls ∨ ∃ x y n, i = .drwVxVyN x y n := by
  cases i <;> simp [piecesWritten]

theorem stack_mem_piecesWritten {i : Instr} : .stack ∈ piecesWritten i ↔ i = .ret ∨ ∃ addr, i = .callAddr addr := by
  cases i <;> simp [piecesWritten]

theorem mem_mem_piecesWritten {i : Instr} : .mem ∈ piecesWritten i ↔ ∃ x, i = .ldBVx x ∨ i = .ldMemIVx x := by
  cases i <;> simp [piecesWritten]

theorem fault_mem_piecesWritten {i : Instr} : .fault ∈ piecesWritten i ↔
    i = .ret ∨ (∃ addr, i = .callAddr addr) ∨ ∃ x, i = .skpVx x ∨ i = .sknpVx x := by
  cases i <;> simp [piecesWritten]

theorem key_notMem_piecesWritten (i : Instr) : .key ∉ piecesWritten i := by
  cases i <;> simp [piecesWritten]

/-! ## Faults and memory in the execute phase -/

/-- The execute phase leaves `FAULT` alone or faults under the condition of 60_exceptions.md R97. -/
theorem exec_fault_cases {i : Instr} {s u : State} (h : exec i s = .next u) : u.fault = s.fault ∨ FaultsAt i s u := by
  by_cases hi : .fault ∈ piecesWritten i
  · rcases fault_mem_piecesWritten.1 hi with rfl | ⟨addr, rfl⟩ | ⟨x, rfl | rfl⟩
    · exact (exec_ret_cases h).imp_left fun ⟨_, _, hu⟩ => hu ▸ rfl
    · exact (exec_callAddr_cases h).imp_left fun ⟨_, _, _, hu⟩ => hu ▸ rfl
    · exact (exec_skpVx_cases h).imp_left fun ⟨_, hu⟩ => hu ▸ rfl
    · exact (exec_sknpVx_cases h).imp_left fun ⟨_, hu⟩ => hu ▸ rfl
  · exact .inl (exec_keeps h hi)

/-- The execute phase keeps memory canonical: Fx33 and Fx55 write bytes, and nothing else touches it. -/
theorem exec_mem_wf {i : Instr} {s u : State} (h : exec i s = .next u) (hm : s.mem.wf) : u.mem.wf := by
  by_cases hi : .mem ∈ piecesWritten i
  · obtain ⟨x, rfl | rfl⟩ := mem_mem_piecesWritten.1 hi <;> obtain rfl := Host.Outcome.next.inj h
    all_goals exact wf_writeBytes hm _ _
  · have hmem : u.mem = s.mem := exec_keeps h hi
    exact hmem ▸ hm

/-! ## One step -/

/-- The three ways a step ends (40_cycle.md R49, R53, R55), told of the state before it. -/
theorem step_cases {s t : State} (h : step s = .next t) :
    (s.fault ≠ none ∧ t = (begun s).tick) ∨
    (s.fault = none ∧ ∃ i u, decode s.fetchWord = .ok i ∧ exec i (begun s) = .next u ∧ t = u.tick) ∨
    (s.fault = none ∧ (∃ e, decode s.fetchWord = .error e) ∧ t = ((begun s).reportUnknown s.fetchWord).tick) :=
  cycle_cases h

/-- A step that finds `FAULT` clear and a word that decodes runs that instruction, then ticks (40_cycle.md R49). -/
theorem exec_of_step {i : Instr} {s t : State} (h : step s = .next t) (hf : s.fault = none)
    (hd : decode s.fetchWord = .ok i) : ∃ u, exec i (begun s) = .next u ∧ t = u.tick :=
  tickAfter_eq_next ((cycle_of_ok (s := begun s) hf hd).symm.trans h)

/-- A step that only ticks keeps every piece but the timers, the random byte and the report. -/
theorem keepsPiece_begun_tick {s : State} {p : Piece} (hp : p ∉ [Piece.dt, .st, .random, .report]) :
    KeepsPiece s (begun s).tick p := by
  simp only [List.mem_cons, List.not_mem_nil, or_false, not_or] at hp
  obtain ⟨hdt, hst, hrnd, hrep⟩ := hp
  exact (keepsPiece_tick hdt hst).2 ((keepsPiece_begun hrnd hrep).2 (.refl s p))

/-- The frame of a step: beside the timers, the random byte and the report, a piece is kept unless the step runs an
instruction that writes it. -/
theorem step_keeps_or_writes {s t : State} {p : Piece} (h : step s = .next t)
    (hp : p ∉ [Piece.dt, .st, .random, .report]) :
    KeepsPiece s t p ∨ s.fault = none ∧ ∃ i, decode s.fetchWord = .ok i ∧ p ∈ piecesWritten i := by
  have hticked := keepsPiece_begun_tick (s := s) hp
  simp only [List.mem_cons, List.not_mem_nil, or_false, not_or] at hp
  obtain ⟨hdt, hst, _, hrep⟩ := hp
  have hbegun : KeepsPiece s (begun s) p := (keepsPiece_tick hdt hst).1 hticked
  rcases step_cases h with ⟨_, rfl⟩ | ⟨hf, i, u, hd, hu, rfl⟩ | ⟨_, _, rfl⟩
  · exact .inl hticked
  · by_cases hi : p ∈ piecesWritten i
    · exact .inr ⟨hf, i, hd, hi⟩
    · exact .inl ((keepsPiece_tick hdt hst).2 (hbegun.trans (exec_keeps hu hi)))
  · exact .inl ((keepsPiece_tick hdt hst).2 ((keepsPiece_reportUnknown hrep).2 hbegun))

end Sys2Proof.Machine
end

section
/-!
PROOFS. The invariant of the core (10_state.md R21, 40_cycle.md R54, R55): it holds after Reset and every step keeps it.
-/

namespace Sys2Proof.Machine

@[simp] theorem inv_tick {s : State} : s.tick.Inv ↔ s.Inv := .rfl
@[simp] theorem inv_begun {s : State} : (begun s).Inv ↔ s.Inv := .rfl

/-- With no fault record the invariant is the canonical form of memory. -/
theorem inv_of_fault_none {s : State} (hm : s.mem.wf) (hf : s.fault = none) : s.Inv :=
  ⟨hm, fun r hr => by simp [hf] at hr⟩

/-- The condition under which the decoded instruction faults is what the record's cause says of the core. -/
theorem causeHolds_of_faultCondition {s : State} {i : Instr} {r : FaultRecord} (hd : decode r.word = .ok i)
    (hc : FaultCondition s i r.cause) : s.CauseHolds r := by
  unfold State.CauseHolds
  cases hr : r.cause <;> simp only [hr, FaultCondition] at hc ⊢
  case stackOverflow =>
    obtain ⟨hsp, addr, rfl⟩ := hc
    exact ⟨hsp, addr, hd⟩
  case stackUnderflow =>
    obtain ⟨hsp, rfl⟩ := hc
    exact ⟨hsp, hd⟩
  case keyIndexRange =>
    obtain ⟨x, rfl | rfl, hx⟩ := hc
    · exact ⟨x, .inl hd, hx⟩
    · exact ⟨x, .inr hd, hx⟩

/-- A fault of the fetched instruction leaves a true record: the encoder gives back the fetched word. -/
theorem FaultsAt.faultTruthful {i : Instr} {s u : State} (hd : decode s.fetchWord = .ok i) (h : FaultsAt i s u) :
    u.FaultTruthful := by
  obtain ⟨c, hc, rfl⟩ := h
  intro r hr
  obtain rfl := Option.some.inj hr
  have hw : encode i = s.fetchWord := encode_of_decode hd
  exact ⟨rfl, hw, causeHolds_of_faultCondition (s := s.takeFault c (encode i)) (hw ▸ hd) hc⟩

/-- The execute phase of the fetched instruction gives a state with the invariant. -/
theorem exec_inv {i : Instr} {s u : State} (hm : s.mem.wf) (hf : s.fault = none) (hd : decode s.fetchWord = .ok i)
    (h : exec i s = .next u) : u.Inv := by
  have hwf := exec_mem_wf h hm
  rcases exec_fault_cases h with hu | hu
  · exact inv_of_fault_none hwf (hu.trans hf)
  · exact ⟨hwf, hu.faultTruthful hd⟩

/-- Settles O29, by the three ways a step ends: a faulted core keeps all that its record speaks of, the execute phase
leaves no record or a true one, and an `UNKNOWN` word leaves none. -/
theorem everyStepKeepsTheInvariant : Obligations.EveryStepKeepsTheInvariant := by
  intro s t hs hstep
  rcases step_cases hstep with ⟨_, rfl⟩ | ⟨hf, i, u, hd, hu, rfl⟩ | ⟨hf, _, rfl⟩
  · exact inv_tick.2 (inv_begun.2 hs)
  · exact inv_tick.2 (exec_inv (s := begun s) hs.1 hf hd hu)
  · exact inv_tick.2 (inv_of_fault_none hs.1 hf)

/-- Settles O28: Reset lists no cell and records no fault. -/
theorem invariantHoldsAtReset : Obligations.InvariantHoldsAtReset :=
  inv_of_fault_none reset_mem_wf rfl

end Sys2Proof.Machine
end

section
/-!
PROOFS. Which steps change the screen, the stack and the keys (10_state.md R14, R18 to R20), each from the frame of a
step.
-/

namespace Sys2Proof.Machine

/-- Settles O27: no instruction writes the key state. -/
theorem noStepChangesTheKeys : Obligations.NoStepChangesTheKeys := by
  intro s t hstep
  rcases step_keeps_or_writes (p := .key) hstep (by decide) with hkey | ⟨_, i, _, hi⟩
  · exact hkey
  · exact absurd hi (key_notMem_piecesWritten i)

theorem exec_redraw_of_writes_screen {i : Instr} {s u : State} (h : exec i s = .next u)
    (hi : .screen ∈ piecesWritten i) : u.redraw = true := by
  rcases screen_mem_piecesWritten.1 hi with rfl | ⟨x, y, n, rfl⟩ <;> obtain rfl := Host.Outcome.next.inj h <;> rfl

/-- Settles O23: CLS and DRW are the instructions that write the screen, and both set `REDRAW`. -/
theorem onlyClsAndDrwChangeTheScreen : Obligations.OnlyClsAndDrwChangeTheScreen := by
  intro s t hstep
  constructor
  · intro hne
    rcases step_keeps_or_writes (p := .screen) hstep (by decide) with ⟨hfb, hredraw⟩ | ⟨hf, i, hd, hi⟩
    · exact (hne.elim (· hfb) (· hredraw)).elim
    · refine ⟨hf, ?_⟩
      rcases screen_mem_piecesWritten.1 hi with rfl | ⟨x, y, n, rfl⟩
      · exact .inl hd
      · exact .inr ⟨x, y, n, hd⟩
  · intro hf hd
    obtain ⟨i, hi, hd⟩ : ∃ i, .screen ∈ piecesWritten i ∧ decode s.fetchWord = .ok i := by
      rcases hd with hd | ⟨x, y, n, hd⟩
      · exact ⟨_, screen_mem_piecesWritten.2 (.inl rfl), hd⟩
      · exact ⟨_, screen_mem_piecesWritten.2 (.inr ⟨x, y, n, rfl⟩), hd⟩
    obtain ⟨u, hu, rfl⟩ := exec_of_step hstep hf hd
    have hredraw : u.redraw = true := exec_redraw_of_writes_screen hu hi
    exact hredraw

/-- RET lowers `SP` and keeps every entry (10_state.md R14). -/
theorem exec_ret_stack {s u : State} (h : exec .ret s = .next u) : u.stack = s.stack := by
  rcases exec_ret_cases h with ⟨_, _, rfl⟩ | ⟨_, _, rfl⟩ <;> rfl

/-- A step keeps `SP` and the stack unless it runs RET or CALL. -/
theorem step_stack_cases {s t : State} (h : step s = .next t) : (t.sp = s.sp ∧ t.stack = s.stack) ∨
    s.fault = none ∧ (decode s.fetchWord = .ok .ret ∨ ∃ addr, decode s.fetchWord = .ok (.callAddr addr)) := by
  rcases step_keeps_or_writes (p := .stack) h (by decide) with hkeep | ⟨hf, i, hd, hi⟩
  · exact .inl hkeep
  · refine .inr ⟨hf, ?_⟩
    rcases stack_mem_piecesWritten.1 hi with rfl | ⟨addr, rfl⟩
    · exact .inl hd
    · exact .inr ⟨addr, hd⟩

/-- Settles O24: RET and CALL are the instructions that write the stack, and RET keeps its entries. -/
theorem onlyCallAndRetTouchTheStack : Obligations.OnlyCallAndRetTouchTheStack := by
  intro s t hstep
  constructor
  · intro hne
    exact (step_stack_cases hstep).resolve_left fun ⟨hsp, hstack⟩ => hne.elim (· hsp) (· hstack)
  · intro hne
    obtain ⟨hf, hret | hcall⟩ := (step_stack_cases hstep).resolve_left fun ⟨_, hstack⟩ => hne hstack
    · obtain ⟨u, hu, rfl⟩ := exec_of_step hstep hf hret
      exact absurd (exec_ret_stack hu) hne
    · exact hcall

end Sys2Proof.Machine
end

section
/-!
PROOFS. Runs in which every step only ticks: a core that waits for a key (10_state.md R25, 45_timers_input.md R94).
-/

namespace Sys2Proof.Machine

theorem SamePiece.trans {s t u : State} {p : Piece} (h : SamePiece s t p) (h' : SamePiece t u p) :
    SamePiece s u p := by
  cases p <;> simp_all [SamePiece]

theorem Frame.refl (regs : List RegIdx) (pieces : List Piece) (s : State) : Frame regs pieces s s :=
  ⟨fun _ _ => rfl, fun p _ => (KeepsPiece.refl s p).samePiece⟩

theorem Frame.trans {regs : List RegIdx} {pieces : List Piece} {s t u : State} (h : Frame regs pieces s t)
    (h' : Frame regs pieces t u) : Frame regs pieces s u :=
  ⟨fun j hj => (h'.1 j hj).trans (h.1 j hj), fun p hp => (h.2 p hp).trans (h'.2 p hp)⟩

theorem frame_begun_tick (s : State) : Frame [] [.dt, .st, .random, .report] s (begun s).tick :=
  ⟨fun _ _ => rfl, fun _ hp => (keepsPiece_begun_tick hp).samePiece⟩

/-- While a condition makes every step only tick, and is kept by that, a run counts the timers down and changes nothing
else. -/
theorem run_of_ticks_only {P : State → Prop} (hP : ∀ s, P s → step s = .next (begun s).tick ∧ P (begun s).tick)
    (n : Nat) (s : State) (hs : P s) :
    ∃ t, Host.Core.run Sys2Proof.core n s = .next t ∧ P t ∧ t.pc = s.pc ∧
      t.dt.toNat = s.dt.toNat - n ∧ t.st.toNat = s.st.toNat - n ∧ Frame [] [.dt, .st, .random, .report] s t := by
  induction n generalizing s with
  | zero => exact ⟨s, rfl, hs, rfl, rfl, rfl, .refl _ _ s⟩
  | succ n ih =>
    obtain ⟨hstep, hs'⟩ := hP s hs
    obtain ⟨t, hrun, ht, hpc, hdt, hst, hframe⟩ := ih (begun s).tick hs'
    have hdt' : (begun s).tick.dt.toNat = s.dt.toNat - 1 := tickByte_toNat s.dt
    have hst' : (begun s).tick.st.toNat = s.st.toNat - 1 := tickByte_toNat s.st
    exact ⟨t, (run_succ_of_next hstep).trans hrun, ht, hpc, by omega, by omega, (frame_begun_tick s).trans hframe⟩

/-- Fx0A with no key pressed changes nothing, `PC` included (45_timers_input.md R94). -/
theorem exec_ldVxK_of_no_key {s : State} (x : RegIdx) (h : ∀ k : Fin 16, s.key[k] = false) :
    exec (.ldVxK x) s = .next s := by
  change execLdVxK x s = .next s
  simp [execLdVxK, highestKey_of_none h]

@[simp] theorem waiting_begun_tick {s : State} : (begun s).tick.Waiting ↔ s.Waiting := .rfl

theorem step_of_waiting {s : State} (h : s.Waiting) : step s = .next (begun s).tick := by
  obtain ⟨hf, ⟨x, hd⟩, hkey⟩ := h
  have hexec : exec (.ldVxK x) (begun s) = .next (begun s) := exec_ldVxK_of_no_key x hkey
  rw [step_eq_cycle, cycle_of_ok (s := begun s) hf hd, hexec]
  rfl

/-- Settles O22, by induction over the steps: each one re-runs the Fx0A, which changes nothing, and ticks. -/
theorem waitingCoreOnlyCountsTimersDown : Obligations.WaitingCoreOnlyCountsTimersDown := by
  intro n s hs
  exact run_of_ticks_only (fun s hs => ⟨step_of_waiting hs, waiting_begun_tick.2 hs⟩) n s hs

end Sys2Proof.Machine
end

section
/-!
PROOFS. The representation of memory and screen: a canonical memory is determined by its bytes (20_memory.md R17, R28),
the host reads the screen row by row (10_state.md R18), and Reset leaves the values of 10_state.md R24.
-/

namespace Sys2Proof.Machine

/-! ## Canonical memories -/

theorem lookupCell_of_mem {m : Memory} {c : Host.Cell} (hm : m.Pairwise (fun c d => c.1 < d.1)) (hc : c ∈ m) :
    lookupCell c.1 m = c.2 := by
  induction m with
  | nil => cases hc
  | cons d ds ih =>
    obtain ⟨hd, hds⟩ := List.pairwise_cons.1 hm
    rcases List.mem_cons.1 hc with rfl | hc
    · simp [lookupCell]
    · have hne : d.1 ≠ c.1 := Nat.ne_of_lt (hd c hc)
      rw [lookupCell, if_neg hne, ih hds hc]

theorem mem_of_lookupCell_ne {m : Memory} {a : Nat} (h : lookupCell a m ≠ unlistedByte a) :
    (a, lookupCell a m) ∈ m := by
  induction m with
  | nil => exact absurd rfl h
  | cons d ds ih =>
    rw [lookupCell] at h ⊢
    split at h
    · next hd => subst hd; simp
    · next hd => simp [hd, ih h]

/-- The cells of a canonical memory are the bytes that differ from what their address reads as unlisted. -/
theorem mem_iff_read_of_wf {m : Memory} (hm : m.wf) (c : Host.Cell) :
    c ∈ m ↔ c.1 < 4096 ∧ m.read c.1 = c.2 ∧ c.2 ≠ unlistedByte c.1 := by
  obtain ⟨hsorted, hcells⟩ := hm
  constructor
  · intro hc
    obtain ⟨hlt, hne⟩ := hcells c hc
    exact ⟨hlt, by rw [Memory.read, Nat.mod_eq_of_lt hlt, lookupCell_of_mem hsorted hc], hne⟩
  · rintro ⟨hlt, hread, hne⟩
    rw [Memory.read, Nat.mod_eq_of_lt hlt] at hread
    have hmem := mem_of_lookupCell_ne (hread ▸ hne)
    rwa [hread] at hmem

/-- Settles O6: the two lists rise strictly and have the same cells. -/
theorem canonicalMemoryIsDeterminedByItsBytes : Obligations.CanonicalMemoryIsDeterminedByItsBytes := by
  intro m n hm hn hread
  have : Std.Irrefl fun c d : Host.Cell => c.1 < d.1 := ⟨fun c => Nat.lt_irrefl c.1⟩
  have : Std.Antisymm fun c d : Host.Cell => c.1 < d.1 := ⟨fun _ _ h h' => absurd h (Nat.lt_asymm h')⟩
  refine hm.1.eq_of_mem_iff hn.1 fun c => ?_
  rw [mem_iff_read_of_wf hm, mem_iff_read_of_wf hn, hread]

/-! ## The screen as the host reads it -/

theorem exportScreen_eq_flatten (s : State) : s.exportScreen = s.fb.flatten.toList := by
  change _ = (s.fb.toArray.map Vector.toArray).flatten.toList
  rw [Array.toList_flatten, Array.toList_map, List.map_map]
  rfl

/-- Settles O3: the host reads the flattened grid, whose entry `j` is row `j / 64`, column `j % 64`. -/
theorem hostReadsScreenRowMajor : Obligations.HostReadsScreenRowMajor := by
  intro s
  have hfb : s.outputs.fb = s.fb.flatten.toList := exportScreen_eq_flatten s
  rw [hfb]
  refine ⟨Vector.length_toList, fun y x => ?_⟩
  have hlt : y.val * 64 + x.val < 32 * 64 := by omega
  have hrow : (y.val * 64 + x.val) / 64 = y.val := by omega
  have hcol : (y.val * 64 + x.val) % 64 = x.val := by omega
  rw [Vector.getElem?_toList, Vector.getElem?_eq_getElem hlt, Vector.getElem_flatten]
  simp [hrow, hcol, State.pixel]

/-! ## Reset -/

theorem hostReset_readV (s : State) (x : RegIdx) : s.hostReset.readV x = 0 := by
  simp [State.hostReset, State.reset, State.readV]

theorem hostReset_getElem_stack (s : State) (j : Fin 16) : s.hostReset.stack[j] = 0 := by
  simp [State.hostReset, State.reset]

theorem hostReset_pixel (s : State) (y : Fin 32) (x : Fin 64) : s.hostReset.pixel y x = false := by
  simp [State.hostReset, State.reset, State.pixel]

theorem hostReset_getElem_key (s : State) (k : Fin 16) : s.hostReset.key[k] = false := by
  simp [State.hostReset, State.reset]

theorem hostReset_readMem (s : State) {a : Nat} (h : a < 4096) : s.hostReset.readMem a = unlistedByte a := by
  change unlistedByte (a % 4096) = unlistedByte a
  rw [Nat.mod_eq_of_lt h]

/-- Settles O1: each value is Reset's own; of the old state only the number of the next free byte is kept. -/
theorem hostResetLeavesResetValues : Obligations.HostResetLeavesResetValues := by
  refine ⟨rfl, ?_⟩
  rintro s _ rfl
  have hfont : ∀ a, a < 80 → some (s.hostReset.readMem a) = Config.fontTable[a]? := fun a ha => by
    rw [hostReset_readMem s (by omega), unlistedByte_of_lt ha]
  have hzero : ∀ a, 80 ≤ a → a < 4096 → s.hostReset.readMem a = 0 := fun a ha hlt => by
    rw [hostReset_readMem s hlt, unlistedByte_of_ge ha]
  exact ⟨hostReset_readV s, rfl, rfl, rfl, hostReset_getElem_stack s, rfl, rfl, hfont, hzero, hostReset_pixel s,
    hostReset_getElem_key s, rfl, rfl⟩

end Sys2Proof.Machine
end

section
/-!
PROOFS. Memory (20_memory.md): the two byte primitives (R28), which steps write memory (R26), and that a fetch sees the
bytes of an earlier store (R38).
-/

namespace Sys2Proof.Machine

/-- Settles O5: the rules of the two byte primitives of memory. -/
theorem memoryReadsTheLastWrite : Obligations.MemoryReadsTheLastWrite :=
  fun m a c b => ⟨read_write m a c b, read_mod m a⟩

/-- Settles O25, from the frame of a step: Fx33 and Fx55 are the instructions that write the piece `mem`. -/
theorem onlyFx33AndFx55WriteMemory : Obligations.OnlyFx33AndFx55WriteMemory := by
  intro s t a hstep hne
  rcases step_keeps_or_writes (p := .mem) hstep (by decide) with hmem | ⟨hf, i, hd, hi⟩
  · exact absurd (KeepsPiece.samePiece (p := .mem) hmem a) hne
  · obtain ⟨x, rfl | rfl⟩ := mem_mem_piecesWritten.1 hi
    · exact ⟨hf, x, .inl hd⟩
    · exact ⟨hf, x, .inr hd⟩

/-- Fx55 leaves `V[k]` at `I + k` for every `k` up to `x` (43_index_memory.md R85). -/
theorem exec_ldMemIVx_readMem {x k : RegIdx} {s t : State} (h : exec (.ldMemIVx x) s = .next t) (hk : k.val ≤ x.val) :
    t.readMem (effAddr s.i k.val) = s.readV k := by
  obtain rfl := Host.Outcome.next.inj h
  have hlen : ((regsUpTo x).map s.readV).length ≤ 4096 := by rw [List.length_map, regsUpTo_length]; omega
  have hget : ((regsUpTo x).map s.readV)[k.val]? = some (s.readV k) := by
    rw [List.getElem?_map, regsUpTo_getElem? x k hk, Option.map_some]
  exact s.writeMemBytes_readMem (effAddr s.i 0) k.val _ _ hlen hget

/-- Settles O50: the fetch reads, modulo 4096, at the addresses where Fx55 put `V[0]` and `V[1]`. -/
theorem storedBytesAreFetchedAsAnInstruction : Obligations.StoredBytesAreFetchedAsAnInstruction := by
  intro x s hx
  obtain ⟨t, hexec⟩ : ∃ t, exec (.ldMemIVx x) s = .next t := ⟨_, rfl⟩
  refine ⟨t, hexec, fun pc hpc => ?_⟩
  have hhigh : t.readMem pc.toNat = s.readV 0 :=
    (read_congr t.mem hpc).trans (exec_ldMemIVx_readMem (k := 0) hexec (Nat.zero_le _))
  have hlow : t.readMem (pc.toNat + 1) = s.readV 1 :=
    (read_congr t.mem (Nat.ModEq.add_right 1 hpc)).trans (exec_ldMemIVx_readMem (k := 1) hexec hx)
  change (joinBytes (t.readMem pc.toNat) (t.readMem (pc.toNat + 1))).toNat = _
  rw [joinBytes_toNat, hhigh, hlow]

end Sys2Proof.Machine
end

section
/-!
PROOFS. Decode and encode agree (30_encoding.md R40 to R46): the fields of what each format writes, the decoder's
answers as the case tree of R44 gives them, and the rows of the opcode table as the same tree.
-/

namespace Sys2Proof

/-! ## The fields of what a format writes (30_encoding.md R41, R42) -/

section Fields

variable (op : BitVec 4) (addr : Addr12) (x y : RegIdx) (kk : Byte) (n : Fin 16)

@[simp] theorem fieldOp_formatA_val : (fieldOp (formatA op addr)).val = op.toNat := by
  rw [fieldOp_val, formatA_toNat]; omega

@[simp] theorem fieldAddr_formatA : fieldAddr (formatA op addr) = addr := by
  apply BitVec.eq_of_toNat_eq
  rw [fieldAddr_toNat, formatA_toNat]; omega

@[simp] theorem fieldOp_formatXK_val : (fieldOp (formatXK op x kk)).val = op.toNat := by
  rw [fieldOp_val, formatXK_toNat]; omega

@[simp] theorem fieldX_formatXK : fieldX (formatXK op x kk) = x := by
  apply Fin.ext
  rw [fieldX_val, formatXK_toNat]; omega

@[simp] theorem fieldKk_formatXK : fieldKk (formatXK op x kk) = kk := by
  apply BitVec.eq_of_toNat_eq
  rw [fieldKk_toNat, formatXK_toNat]; omega

@[simp] theorem fieldOp_formatXYN_val : (fieldOp (formatXYN op x y n)).val = op.toNat := by
  rw [fieldOp_val, formatXYN_toNat]; omega

@[simp] theorem fieldX_formatXYN : fieldX (formatXYN op x y n) = x := by
  apply Fin.ext
  rw [fieldX_val, formatXYN_toNat]; omega

@[simp] theorem fieldY_formatXYN : fieldY (formatXYN op x y n) = y := by
  apply Fin.ext
  rw [fieldY_val, formatXYN_toNat]; omega

@[simp] theorem fieldN_formatXYN : fieldN (formatXYN op x y n) = n := by
  apply Fin.ext
  rw [fieldN_val, formatXYN_toNat]; omega

end Fields

/-- Settles O8: the fields of the format's word lead the case tree to the instruction's own leaf, and give its operands
back. The cases are grouped by the part of the tree that decides them. -/
theorem decodeOfEncodeIsTheInstruction : Obligations.DecodeOfEncodeIsTheInstruction := by
  intro i
  cases i
  case cls | ret => decide
  case ldVxVy | orVxVy | andVxVy | xorVxVy | addVxVy | subVxVy | shrVx | subnVxVy | shlVx =>
    simp [encode, decode, decode8]
  case skpVx | sknpVx => simp [encode, decode, decodeE]
  case ldVxDt | ldVxK | ldDtVx | ldStVx | addIVx | ldFVx | ldBVx | ldMemIVx | ldVxMemI =>
    simp [encode, decode, decodeF]
  all_goals simp [encode, decode]

/-- Settles O9, by the case tree of the decoder (`encode_of_decode`). It covers 8xy6 and 8xyE because an `Instr` keeps
the `y` field they do not read (log entry 12). -/
theorem encodeOfDecodedWordIsTheWord : Obligations.EncodeOfDecodedWordIsTheWord :=
  fun _ _ => encode_of_decode

/-- Settles O12, by running the decoder on each of the eleven words. -/
theorem sampleWordsDecodeAsWritten : Obligations.SampleWordsDecodeAsWritten := by
  unfold Obligations.SampleWordsDecodeAsWritten
  decide

/-! ## The words the case tree rejects (30_encoding.md R44, R45) -/

section Rejections

variable (w : Word)

theorem decode0_eq_unknown_iff : decode0 w = .error (.unknown w) ↔ w.toNat ≠ 0x00E0 ∧ w.toNat ≠ 0x00EE := by
  have hcls : w.toNat = 0x00E0 ↔ w = 0x00E0 := (BitVec.toNat_eq (y := 0x00E0)).symm
  have hret : w.toNat = 0x00EE ↔ w = 0x00EE := (BitVec.toNat_eq (y := 0x00EE)).symm
  rw [Ne, Ne, hcls, hret]
  unfold decode0
  split
  · simp [*]
  · split <;> simp_all

theorem decode8_eq_unknown_iff :
    decode8 w = .error (.unknown w) ↔ (fieldN w).val ∈ [0x8, 0x9, 0xA, 0xB, 0xC, 0xD, 0xF] := by
  have hlt := (fieldN w).isLt
  unfold decode8
  split
  case h_10 =>
    simp only [imp_false] at *
    simp only [List.mem_cons, List.not_mem_nil, or_false, true_iff]
    omega
  all_goals simp [*]

theorem decodeE_eq_unknown_iff :
    decodeE w = .error (.unknown w) ↔ (fieldKk w).toNat ∉ [0x9E, 0xA1] := by
  unfold decodeE
  split <;> simp_all

theorem decodeF_eq_unknown_iff : decodeF w = .error (.unknown w) ↔
    (fieldKk w).toNat ∉ [0x07, 0x0A, 0x15, 0x18, 0x1E, 0x29, 0x33, 0x55, 0x65] := by
  unfold decodeF
  split <;> simp_all

/-- Every leaf of the case tree is an instruction or the rejection of the word itself. -/
theorem decode_eq_ok_or_unknown : (∃ i, decode w = .ok i) ∨ decode w = .error (.unknown w) := by
  unfold decode decode0 decode8 decodeE decodeF
  repeat' split
  all_goals simp

/-- The list of 30_encoding.md R45 in the fields that the case tree reads. Cases `h_1` to `h_16` of the tree are the high
nibbles 0 to F, and `h_17` is no nibble. -/
theorem decode_eq_unknown_iff : decode w = .error (.unknown w) ↔
    ((fieldOp w).val = 0x0 ∧ w.toNat ≠ 0x00E0 ∧ w.toNat ≠ 0x00EE) ∨
    ((fieldOp w).val = 0x5 ∧ (fieldN w).val ≠ 0) ∨
    ((fieldOp w).val = 0x8 ∧ (fieldN w).val ∈ [0x8, 0x9, 0xA, 0xB, 0xC, 0xD, 0xF]) ∨
    ((fieldOp w).val = 0x9 ∧ (fieldN w).val ≠ 0) ∨
    ((fieldOp w).val = 0xE ∧ (fieldKk w).toNat ∉ [0x9E, 0xA1]) ∨
    ((fieldOp w).val = 0xF ∧ (fieldKk w).toNat ∉ [0x07, 0x0A, 0x15, 0x18, 0x1E, 0x29, 0x33, 0x55, 0x65]) := by
  have hlt := (fieldOp w).isLt
  unfold decode
  split
  case h_1 ho => rw [decode0_eq_unknown_iff]; simp [ho]
  case h_9 ho => rw [decode8_eq_unknown_iff]; simp [ho]
  case h_15 ho => rw [decodeE_eq_unknown_iff]; simp [ho]
  case h_16 ho => rw [decodeF_eq_unknown_iff]; simp [ho]
  case h_17 =>
    exfalso
    interval_cases (fieldOp w).val <;> contradiction
  all_goals simp [*]

end Rejections

/-- Settles O11: the six ranges are the words whose fields the case tree rejects. -/
theorem unknownWordsAreTheListedRanges : Obligations.UnknownWordsAreTheListedRanges := by
  intro w
  have hzero : w.toNat < 0x1000 ↔ (fieldOp w).val = 0 := by rw [fieldOp_val]; omega
  rw [decode_eq_unknown_iff, hzero, ← fieldOp_val, ← fieldN_val, ← fieldKk_toNat]

/-! ## The rows of the opcode table (30_encoding.md R46) -/

section Rows

variable {r : OpRow} {w : Word}

/-- A field of which the row fixes every bit is the row's. -/
theorem extractLsb'_of_admits {start len : Nat} (h : r.admits w = true)
    (hm : r.mask.extractLsb' start len = BitVec.allOnes len) :
    w.extractLsb' start len = r.value.extractLsb' start len := by
  have hw : w &&& r.mask = r.value := by simpa [OpRow.admits] using h
  rw [← hw, BitVec.extractLsb'_and, hm, BitVec.and_allOnes]

theorem fieldOp_of_admits (h : r.admits w = true) (hm : r.mask.extractLsb' 12 4 = BitVec.allOnes 4) :
    fieldOp w = fieldOp r.value := congrArg BitVec.toFin (extractLsb'_of_admits h hm)

theorem fieldN_of_admits (h : r.admits w = true) (hm : r.mask.extractLsb' 0 4 = BitVec.allOnes 4) :
    fieldN w = fieldN r.value := congrArg BitVec.toFin (extractLsb'_of_admits h hm)

theorem fieldKk_of_admits (h : r.admits w = true) (hm : r.mask.extractLsb' 0 8 = BitVec.allOnes 8) :
    fieldKk w = fieldKk r.value := extractLsb'_of_admits h hm

/-- The table by its four masks: which values of the fixed fields have a row. -/
theorem opRows_by_mask : ∀ r ∈ opRows,
    r.mask = 0xFFFF ∧ (r.value = 0x00E0 ∨ r.value = 0x00EE) ∨
    r.mask = 0xF000 ∧ (fieldOp r.value).val ∉ [0x0, 0x5, 0x8, 0x9, 0xE, 0xF] ∨
    r.mask = 0xF00F ∧ (((fieldOp r.value).val = 0x5 ∨ (fieldOp r.value).val = 0x9) ∧ (fieldN r.value).val = 0 ∨
      (fieldOp r.value).val = 0x8 ∧ (fieldN r.value).val ∉ [0x8, 0x9, 0xA, 0xB, 0xC, 0xD, 0xF]) ∨
    r.mask = 0xF0FF ∧ ((fieldOp r.value).val = 0xE ∧ (fieldKk r.value).toNat ∈ [0x9E, 0xA1] ∨
      (fieldOp r.value).val = 0xF ∧
        (fieldKk r.value).toNat ∈ [0x07, 0x0A, 0x15, 0x18, 0x1E, 0x29, 0x33, 0x55, 0x65]) := by
  decide

/-- The case tree rejects no word of a row: the bits the row fixes are those the tree reads. -/
theorem decode_ne_unknown_of_admits (hr : r ∈ opRows) (h : r.admits w = true) : decode w ≠ .error (.unknown w) := by
  obtain ⟨hm, hv⟩ | ⟨hm, hop⟩ | ⟨hm, hv⟩ | ⟨hm, hv⟩ := opRows_by_mask r hr
  · have hw : w = r.value := by simpa using extractLsb'_of_admits (start := 0) (len := 16) h (by rw [hm]; rfl)
    obtain hv | hv := hv <;> (rw [hw, hv]; decide)
  · rw [← fieldOp_of_admits h (by rw [hm]; rfl)] at hop
    simp_all [decode_eq_unknown_iff]
  · rw [← fieldOp_of_admits h (by rw [hm]; rfl), ← fieldN_of_admits h (by rw [hm]; rfl)] at hv
    obtain ⟨hop | hop, hn⟩ | ⟨hop, hn⟩ := hv <;> simp_all [decode_eq_unknown_iff]
  · rw [← fieldOp_of_admits h (by rw [hm]; rfl), ← fieldKk_of_admits h (by rw [hm]; rfl)] at hv
    obtain ⟨hop, hkk⟩ | ⟨hop, hkk⟩ := hv <;> simp [decode_eq_unknown_iff, hop, hkk]

open Laws.EncodingRow in
/-- The row of an instruction stands in the table and admits the word the instruction encodes to. -/
theorem row_mem_opRows_and_admits_encode (i : Instr) : i.row ∈ opRows ∧ i.row.admits (encode i) = true := by
  change Statement i
  cases i
  exacts [cls, ret, jpAddr _, callAddr _, seVxKk _ _, sneVxKk _ _, seVxVy _ _, ldVxKk _ _, addVxKk _ _, ldVxVy _ _,
    orVxVy _ _, andVxVy _ _, xorVxVy _ _, addVxVy _ _, subVxVy _ _, shrVx _ _, subnVxVy _ _, shlVx _ _, sneVxVy _ _,
    ldIAddr _, jpV0Addr _, rndVxKk _ _, drwVxVyN _ _ _, skpVx _, sknpVx _, ldVxDt _, ldVxK _, ldDtVx _, ldStVx _,
    addIVx _, ldFVx _, ldBVx _, ldMemIVx _, ldVxMemI _]

theorem isInstrWord_iff : isInstrWord w = true ↔ ∃ r ∈ opRows, r.admits w = true := List.any_eq_true

end Rows

/-- Settles O10: a word of a row is not rejected, and the word of a decoded instruction is a word of its row. -/
theorem decodeAcceptsExactlyTheTableRows : Obligations.DecodeAcceptsExactlyTheTableRows := by
  intro w
  have hrow : ∀ i, decode w = .ok i → i.row ∈ opRows ∧ i.row.admits w = true := fun i hi =>
    encode_of_decode hi ▸ row_mem_opRows_and_admits_encode i
  constructor
  · intro hw
    obtain ⟨r, hr, h⟩ := isInstrWord_iff.1 hw
    obtain ⟨i, hi⟩ := (decode_eq_ok_or_unknown w).resolve_right (decode_ne_unknown_of_admits hr h)
    exact ⟨i, hi, (hrow i hi).2⟩
  · intro hw
    refine (decode_eq_ok_or_unknown w).resolve_left fun ⟨i, hi⟩ => ?_
    exact absurd (isInstrWord_iff.2 ⟨_, hrow i hi⟩) (by simp [hw])

/-! ## The fetched word (30_encoding.md R40) -/

/-- Settles O7: the two bytes of the fetch are joined high byte first, and memory takes each address modulo 4096. -/
theorem fetchCombinesTwoBytesBigEndian : Obligations.FetchCombinesTwoBytesBigEndian := by
  intro s
  have hmod (a : Nat) : s.readMem (a % 4096) = s.readMem a := Machine.read_mod s.mem a
  rw [hmod, hmod]
  exact joinBytes_toNat _ _

end Sys2Proof
end

section
/-!
PROOFS. The step cycle (40_cycle.md R49 to R57): no instruction halts the core, a step runs the decoded instruction or
reports an `UNKNOWN` word, and a faulted core only ticks until Reset.
-/

namespace Sys2Proof.Machine

/-! ## Every step answers a next state (40_cycle.md R57) -/

/-- No arm of the execute phase is a fault or a refusal of the interface: the five arms that branch answer a next state
in each branch. -/
theorem exec_eq_next (i : Instr) (s : State) : ∃ u, exec i s = .next u := by
  cases i
  case ret | callAddr | skpVx | sknpVx | ldVxK =>
    simp only [exec, execRet, execCallAddr, execSkpVx, execSknpVx, execLdVxK]
    split <;> exact ⟨_, rfl⟩
  all_goals exact ⟨_, rfl⟩

/-- When the word at `PC` decodes and the execute phase answers `u`, the cycle answers `u` ticked. -/
theorem cycle_of_exec {s u : State} {i : Instr} (hf : s.fault = none) (hd : decode s.fetchWord = .ok i)
    (hu : exec i s = .next u) : cycle s = .next u.tick := by
  rw [cycle_of_ok hf hd, hu]
  rfl

theorem cycle_eq_next (s : State) : ∃ t, cycle s = .next t := by
  by_cases hf : s.fault = none
  · cases hd : decode s.fetchWord with
    | ok i =>
      obtain ⟨u, hu⟩ := exec_eq_next i s
      exact ⟨_, cycle_of_exec hf hd hu⟩
    | error e => exact ⟨_, cycle_of_error hf hd⟩
  · exact ⟨_, cycle_of_fault hf⟩

/-- Settles O14: both steps are a cycle, whose three ways to end are all next states. -/
theorem everyStepAnswersANextState : Obligations.EveryStepAnswersANextState :=
  fun _ _ => ⟨cycle_eq_next _, cycle_eq_next _⟩

/-! ## The execute phase and the report of an `UNKNOWN` word (40_cycle.md R49, R53) -/

/-- Settles O13: putting the byte in place touches neither `FAULT` nor the fetched word. Which byte `step` takes is log
entry 1. -/
theorem stepRunsTheDecodedInstruction : Obligations.StepRunsTheDecodedInstruction := by
  intro s i hf hd
  exact ⟨fun rnd _ => cycle_of_exec (s := s.beginStep rnd) hf hd, fun _ => cycle_of_exec (s := begun s) hf hd⟩

theorem step_of_unknown {s : State} (hf : s.fault = none) (hw : isInstrWord s.fetchWord = false) :
    step s = .next ((begun s).reportUnknown s.fetchWord).tick :=
  cycle_of_error (s := begun s) hf ((decodeAcceptsExactlyTheTableRows s.fetchWord).2 hw)

/-- The report of an `UNKNOWN` word writes `PC` and the report alone (40_cycle.md R53). -/
theorem frame_reportUnknown_tick (s : State) (w : Word) :
    Frame [] [.dt, .st, .random, .report] s ((begun s).reportUnknown w).tick := by
  refine ⟨fun _ _ => rfl, fun p hp => KeepsPiece.samePiece ?_⟩
  have hticked := keepsPiece_begun_tick (s := s) hp
  simp only [List.mem_cons, List.not_mem_nil, or_false, not_or] at hp
  obtain ⟨hdt, hst, _, hrep⟩ := hp
  rw [keepsPiece_tick hdt hst] at hticked ⊢
  exact (keepsPiece_reportUnknown hrep).2 hticked

/-- Settles O15: the word has no row of the opcode table, so it does not decode and the cycle reports it. -/
theorem unknownWordIsReportedAndSkipped : Obligations.UnknownWordIsReportedAndSkipped := by
  intro s hf hw
  exact ⟨_, step_of_unknown hf hw, rfl, rfl, tickByte_toNat s.dt, tickByte_toNat s.st, frame_reportUnknown_tick s _⟩

/-! ## A faulted core (40_cycle.md R55, 60_exceptions.md R101, R102) -/

theorem step_of_fault {s : State} (h : s.fault ≠ none) : step s = .next (begun s).tick :=
  cycle_of_fault (s := begun s) h

@[simp] theorem hostReset_fault (s : State) : s.hostReset.fault = none := rfl

/-- A Load changes `FAULT` only if the image fits, and then it clears it, since it runs Reset
(70_reset_and_hazards.md R118). -/
theorem hostLoad_fault (s : State) (image : List Byte) :
    (s.hostLoad image).2.fault = if image.length ≤ 3584 then none else s.fault := by
  have hfits : imageFits image = decide (image.length ≤ 3584) := rfl
  rw [State.hostLoad, hfits]
  by_cases h : image.length ≤ 3584 <;> simp [h]

/-- Of the host's moves on a faulted core only Reset, and a Load that runs it, change `FAULT`, and they clear it
(60_exceptions.md R102). -/
theorem hostMove_changes_fault {m : HostMove} {s t : State} (hs : s.fault ≠ none) (h : hostMove m s = .next t)
    (hne : t.fault ≠ s.fault) :
    t.fault = none ∧ (m = .reset ∨ ∃ image, m = .load image ∧ image.length ≤ 3584) := by
  cases m with
  | reset =>
    obtain rfl := Host.Outcome.next.inj h
    exact ⟨rfl, .inl rfl⟩
  | load image =>
    obtain rfl := Host.Outcome.next.inj h
    rw [hostLoad_fault] at hne ⊢
    by_cases hlen : image.length ≤ 3584
    · exact ⟨if_pos hlen, .inr ⟨image, rfl, hlen⟩⟩
    · exact absurd (if_neg hlen) hne
  | step rnd =>
    have htick : cycle (s.beginStep rnd) = .next (s.beginStep rnd).tick := cycle_of_fault hs
    obtain rfl := Host.Outcome.next.inj (htick.symm.trans h)
    exact absurd rfl hne
  | setKeys | clearRedraw =>
    obtain rfl := Host.Outcome.next.inj h
    exact absurd rfl hne

/-- Settles O16: the step is the tick of the cycle's first branch, and the moves are taken one by one
(`hostMove_changes_fault`). -/
theorem faultedCoreOnlyTicksUntilReset : Obligations.FaultedCoreOnlyTicksUntilReset := by
  intro s hs
  refine ⟨⟨_, step_of_fault hs, rfl, rfl, tickByte_toNat s.dt, tickByte_toNat s.st, frame_begun_tick s⟩, ?_⟩
  exact fun _ _ => hostMove_changes_fault hs

/-- Settles O17, by induction over the steps (`run_of_ticks_only`): each one only ticks, and a tick keeps `FAULT`. -/
theorem faultedRunOnlyCountsTimersDown : Obligations.FaultedRunOnlyCountsTimersDown := by
  intro n s hs
  obtain ⟨t, hrun, _, hrest⟩ :=
    run_of_ticks_only (P := (·.fault ≠ none)) (fun _ h => ⟨step_of_fault h, h⟩) n s hs
  exact ⟨t, hrun, hrest⟩

end Sys2Proof.Machine
end

section
/-!
PROOFS. Control flow (41_control_flow.md): return, jumps, call and the register skips, each with the word it is read
from and its frame.
-/

namespace Sys2Proof

/-! ## Words given as numbers (30_encoding.md R42, R46) -/

/-- A number that is an instruction's word decodes to that instruction. -/
theorem decode_ofNat_of_encode {i : Instr} {n : Nat} (h : (encode i).toNat = n) :
    decode (BitVec.ofNat 16 n) = .ok i := by
  rw [← h, BitVec.ofNat_toNat, BitVec.setWidth_eq]
  exact decodeOfEncodeIsTheInstruction i

theorem isInstrWord_eq_false_of_unknown {w : Word} (h : decode w = .error (.unknown w)) : isInstrWord w = false := by
  refine Bool.eq_false_iff.2 fun hw => ?_
  obtain ⟨i, hi, _⟩ := (decodeAcceptsExactlyTheTableRows w).1 hw
  simp [hi] at h

/-- The families of high nibble 5 and 9 have no instruction with a nonzero low nibble (41_control_flow.md R63, R64). -/
theorem isInstrWord_eq_false_of_low_nibble {op : BitVec 4} (hop : op = 0x5 ∨ op = 0x9) (x y : RegIdx) {n : Fin 16}
    (hn : n ≠ 0) : isInstrWord (BitVec.ofNat 16 (op.toNat * 4096 + 256 * x.val + 16 * y.val + n.val)) = false := by
  have hword : op.toNat * 4096 + 256 * x.val + 16 * y.val + n.val = (formatXYN op x y n).toNat := by
    rw [formatXYN_toNat]; omega
  have hn : n.val ≠ 0 := fun h => hn (Fin.ext h)
  rw [hword, BitVec.ofNat_toNat, BitVec.setWidth_eq]
  apply isInstrWord_eq_false_of_unknown
  rw [decode_eq_unknown_iff, fieldOp_formatXYN_val, fieldN_formatXYN]
  rcases hop with rfl | rfl <;> simp [hn]

end Sys2Proof

namespace Sys2Proof.Machine

/-! ## Frames of the updates that control flow is built from -/

/-- An update that keeps the registers and every unlisted piece has the frame of that list. -/
theorem frame_of_keepsPiece {regs : List RegIdx} {pieces : List Piece} {s t : State} (hv : t.v = s.v)
    (hp : ∀ p, p ∉ pieces → KeepsPiece s t p) : Frame regs pieces s t :=
  ⟨fun j _ => congrArg (·[j]) hv, fun p h => (hp p h).samePiece⟩

theorem frame_setPc (s : State) (w : Word) : Frame [] [] s (s.setPc w) :=
  frame_of_keepsPiece rfl fun p _ => keepsPiece_setPc.2 (.refl s p)

theorem frame_stack_setPc (s : State) (stack : Vector Word 16) (sp : Fin 17) (w : Word) :
    Frame [] [.stack] s (({ s with stack := stack, sp := sp } : State).setPc w) :=
  frame_of_keepsPiece rfl fun p hp => keepsPiece_setPc.2 ((keepsPiece_stack (by simpa using hp)).2 (.refl s p))

theorem frame_takeFault (s : State) (c : FaultCause) (w : Word) : Frame [] [.fault] s (s.takeFault c w) :=
  frame_of_keepsPiece rfl fun p hp => (keepsPiece_takeFault (by simpa using hp)).2 (.refl s p)

/-! ## Return (41_control_flow.md R58) -/

theorem exec_ret_of_pos {s : State} (h : 0 < s.sp.val) : exec .ret s =
    .next (({ s with sp := ⟨s.sp.val - 1, by omega⟩ } : State).setPc (s.stack[s.sp.val - 1] + 2)) := by
  change execRet s = _
  rw [execRet, State.pop_of_pos h]

theorem exec_ret_of_empty {s : State} (h : s.sp.val = 0) :
    exec .ret s = .next (s.takeFault .stackUnderflow 0x00EE) := by
  change execRet s = _
  rw [execRet, State.pop_eq_none.2 h]
  rfl

/-- Settles O31: the pop answers the entry below `SP`, or fails when no entry is in use. -/
theorem returnLandsTwoPastThePoppedAddress : Obligations.ReturnLandsTwoPastThePoppedAddress := by
  refine ⟨by decide, fun s => ⟨fun h => ?_, fun h => ?_⟩⟩
  · exact ⟨_, exec_ret_of_pos h, rfl, rfl, rfl, frame_stack_setPc s s.stack _ _⟩
  · exact ⟨_, exec_ret_of_empty h, rfl, rfl, frame_takeFault s _ _⟩

/-! ## Jumps (41_control_flow.md R59, R65) -/

/-- Settles O32: both write `PC` alone, and the sum of a 12-bit address and a byte fits in 16 bits. -/
theorem jumpsSetTheProgramCounter : Obligations.JumpsSetTheProgramCounter := by
  intro addr s
  exact ⟨⟨decode_ofNat_of_encode (formatA_toNat 0x1 addr), _, rfl, zextAddr_toNat addr, frame_setPc s _⟩,
    decode_ofNat_of_encode (formatA_toNat 0xB addr), _, rfl, indexedTarget_toNat addr _, frame_setPc s _⟩

/-! ## Call (41_control_flow.md R60) -/

theorem encode_callAddr_toNat (addr : Addr12) : (encode (.callAddr addr)).toNat = 0x2000 + addr.toNat :=
  formatA_toNat 0x2 addr

theorem exec_callAddr_of_lt {s : State} (addr : Addr12) (h : s.sp.val < 16) : exec (.callAddr addr) s =
    .next (({ s with stack := s.stack.set s.sp.val s.pc h, sp := ⟨s.sp.val + 1, by omega⟩ } : State).setPc
      (zextAddr addr)) := by
  change execCallAddr addr s = _
  rw [execCallAddr, State.push_of_lt s.pc h]

theorem exec_callAddr_of_full {s : State} (addr : Addr12) (h : s.sp.val = 16) :
    exec (.callAddr addr) s = .next (s.takeFault .stackOverflow (BitVec.ofNat 16 (0x2000 + addr.toNat))) := by
  change execCallAddr addr s = _
  rw [execCallAddr, State.push_eq_none.2 h, ← encode_callAddr_toNat, BitVec.ofNat_toNat, BitVec.setWidth_eq]

/-- Settles O33: the push writes the entry at `SP` and no other, or fails when 16 entries are in use. -/
theorem callPushesItsOwnAddress : Obligations.CallPushesItsOwnAddress := by
  refine fun addr s => ⟨decode_ofNat_of_encode (encode_callAddr_toNat addr), fun h => ?_, fun h => ?_⟩
  · have hother (j : Fin 16) (hj : j.val ≠ s.sp.val) : (s.stack.set s.sp.val s.pc h)[j] = s.stack[j] :=
      Vector.getElem_set_ne h j.isLt hj.symm
    exact ⟨_, exec_callAddr_of_lt addr h, Vector.getElem_set_self h, hother, rfl, zextAddr_toNat addr,
      frame_stack_setPc s _ _ _⟩
  · exact ⟨_, exec_callAddr_of_full addr h, rfl, rfl, frame_takeFault s _ _⟩

/-- Settles O36, from the rules of CALL and RET: the entry that RET pops is the one CALL pushed. -/
theorem callThenReturnComesBack : Obligations.CallThenReturnComesBack := by
  intro addr s h
  obtain ⟨t, hcall, hpushed, _, htsp, _, _⟩ := (callPushesItsOwnAddress addr s).2.1 h
  obtain ⟨u, hret, husp, hupc, _, _⟩ := (returnLandsTwoPastThePoppedAddress.2 t).1 (by omega)
  refine ⟨t, u, hcall, hret, ?_, Fin.ext (by omega)⟩
  simp only [htsp, Nat.add_sub_cancel] at hupc
  rw [hupc, hpushed]

/-! ## Skips (41_control_flow.md R61 to R64) -/

/-- A skip moves `PC` by 4 when its condition holds, else by 2, and changes nothing else (40_cycle.md R51). -/
theorem skipIf_pc_and_frame {s : State} {taken : Bool} {p : Prop} [Decidable p] (h : taken = true ↔ p) :
    (s.skipIf taken).pc = (if p then s.pc + 4 else s.pc + 2) ∧ Frame [] [] s (s.skipIf taken) :=
  ⟨by simp [h], frame_setPc s _⟩

/-- Settles O34: each skip is taken exactly when its comparison of `V[x]` with `kk` holds. -/
theorem immediateSkipsCompareAndSkip : Obligations.ImmediateSkipsCompareAndSkip := by
  intro x kk s
  have hword (op : BitVec 4) : (formatXK op x kk).toNat = op.toNat * 4096 + 256 * x.val + kk.toNat := by
    rw [formatXK_toNat, Nat.mul_comm x.val]
  exact ⟨⟨decode_ofNat_of_encode (hword 0x3), _, rfl, skipIf_pc_and_frame beq_iff_eq⟩,
    decode_ofNat_of_encode (hword 0x4), _, rfl, skipIf_pc_and_frame bne_iff_ne⟩

/-- Settles O35: each skip is taken exactly when its comparison of `V[x]` with `V[y]` holds, and the decoder reads the
low nibble of both families. -/
theorem registerSkipsCompareAndSkip : Obligations.RegisterSkipsCompareAndSkip := by
  intro x y s
  have hword (op : BitVec 4) : (formatXYN op x y 0).toNat = op.toNat * 4096 + 256 * x.val + 16 * y.val := by
    rw [formatXYN_toNat, Fin.val_zero]; omega
  exact ⟨⟨decode_ofNat_of_encode (hword 0x5), _, rfl, skipIf_pc_and_frame beq_iff_eq⟩,
    ⟨decode_ofNat_of_encode (hword 0x9), _, rfl, skipIf_pc_and_frame bne_iff_ne⟩, fun n hn =>
    ⟨isInstrWord_eq_false_of_low_nibble (.inl rfl) x y hn, isInstrWord_eq_false_of_low_nibble (.inr rfl) x y hn⟩⟩

end Sys2Proof.Machine
end

section
/-!
PROOFS. The registers each instruction may write, which with `piecesWritten` is the frame of the execute phase; from it
the rule of `VF` (42_alu.md R80).
-/

namespace Sys2Proof.Machine

/-- The general registers the execute phase of an instruction may write: its named destination, and `VF` where the flag
table lists it (42_alu.md R80). -/
def regsWritten : Instr → List RegIdx
  | .ldVxKk x _ | .addVxKk x _ | .ldVxVy x _ | .orVxVy x _ | .andVxVy x _ | .xorVxVy x _ | .rndVxKk x _ | .ldVxDt x
  | .ldVxK x => [x]
  | .addVxVy x _ | .subVxVy x _ | .shrVx x _ | .subnVxVy x _ | .shlVx x _ => [x, 15]
  | .addIVx _ | .drwVxVyN _ _ _ => [15]
  | .ldVxMemI x => regsUpTo x
  | _ => []

theorem FaultsAt.readV_eq {i : Instr} {s u : State} (h : FaultsAt i s u) (j : RegIdx) : u.readV j = s.readV j := by
  obtain ⟨c, _, rfl⟩ := h
  rfl

/-- A register outside `regsWritten` is kept by the execute phase. -/
theorem exec_keeps_readV {i : Instr} {s u : State} {j : RegIdx} (h : exec i s = .next u) (hj : j ∉ regsWritten i) :
    u.readV j = s.readV j := by
  cases i <;> simp only [regsWritten, List.mem_cons, List.not_mem_nil, or_false, not_or, not_false_eq_true] at hj
  case ret => exact (exec_ret_cases h).elim (fun ⟨_, _, hu⟩ => hu ▸ rfl) (·.readV_eq j)
  case callAddr => exact (exec_callAddr_cases h).elim (fun ⟨_, _, _, hu⟩ => hu ▸ rfl) (·.readV_eq j)
  case skpVx => exact (exec_skpVx_cases h).elim (fun ⟨_, hu⟩ => hu ▸ rfl) (·.readV_eq j)
  case sknpVx => exact (exec_sknpVx_cases h).elim (fun ⟨_, hu⟩ => hu ▸ rfl) (·.readV_eq j)
  case ldVxK => rcases exec_ldVxK_cases h with ⟨b, rfl⟩ | rfl <;> simp [hj]
  all_goals
    obtain rfl := Host.Outcome.next.inj h
    simp [hj]

/-- The frame of the execute phase: what an instruction writes is `regsWritten`, `piecesWritten` and `PC`. -/
theorem exec_frame {i : Instr} {s u : State} (h : exec i s = .next u) : Frame (regsWritten i) (piecesWritten i) s u :=
  ⟨fun _ hj => exec_keeps_readV h hj, fun _ hp => (exec_keeps h hp).samePiece⟩

theorem vf_mem_regsUpTo {x : RegIdx} : 15 ∈ regsUpTo x ↔ 15 = x := by
  rw [mem_regsUpTo, Fin.ext_iff]; omega

/-- Settles O26: the instructions with `VF` among the registers they may write are those of the list. -/
theorem flagRegisterChangesOnlyAsListed : Obligations.FlagRegisterChangesOnlyAsListed := by
  intro i s t h hne
  have hvf : 15 ∈ regsWritten i := by_contra fun hvf => hne (exec_keeps_readV h hvf)
  cases i <;> simp only [regsWritten, List.mem_cons, List.not_mem_nil, or_false, or_true, vf_mem_regsUpTo] at hvf
  case ldVxKk | addVxKk | ldVxVy | orVxVy | andVxVy | xorVxVy | rndVxKk | ldVxDt | ldVxK | ldVxMemI =>
    subst hvf
    simp
  case addVxVy | subVxVy | shrVx | subnVxVy | shlVx | addIVx | drwVxVyN => simp

end Sys2Proof.Machine
end

section
/-!
PROOFS. Register loads and the arithmetic-logic unit (42_alu.md): each instruction with the word it is read from, its
result, its flag and its frame.
-/

namespace Sys2Proof

theorem decode_ofNat_of_formatXK {i : Instr} {op : BitVec 4} {x : RegIdx} {kk : Byte}
    (h : encode i = formatXK op x kk) :
    decode (BitVec.ofNat 16 (op.toNat * 4096 + 256 * x.val + kk.toNat)) = .ok i :=
  decode_ofNat_of_encode (by rw [h, formatXK_toNat, Nat.mul_comm x.val])

theorem decode_ofNat_of_formatXYN {i : Instr} {op : BitVec 4} {x y n : Fin 16} (h : encode i = formatXYN op x y n) :
    decode (BitVec.ofNat 16 (op.toNat * 4096 + n.val + 256 * x.val + 16 * y.val)) = .ok i :=
  decode_ofNat_of_encode (by rw [h, formatXYN_toNat]; omega)

end Sys2Proof

namespace Sys2Proof.Machine

/-! ## Results and flags as numbers (42_alu.md R73 to R77) -/

theorem byte_sub_toNat (a b : Byte) : (a - b).toNat = (a.toNat + 256 - b.toNat) % 256 := by
  have := b.isLt
  rw [BitVec.toNat_sub]; omega

theorem byte_shiftRight_one_toNat (a : Byte) : (a >>> 1).toNat = a.toNat / 2 := by
  rw [BitVec.toNat_ushiftRight, Nat.shiftRight_one]

theorem byte_shiftLeft_one_toNat (a : Byte) : (a <<< 1).toNat = a.toNat * 2 % 256 := by
  rw [BitVec.toNat_shiftLeft, Nat.shiftLeft_eq, Nat.pow_one]

theorem carryFlag_eq_ite (a b : Byte) : carryFlag a b = if a.toNat + b.toNat > 255 then 1 else 0 :=
  flagByte_decide _

theorem notBorrowFlag_eq_ite (a b : Byte) : notBorrowFlag a b = if b.toNat > a.toNat then 0 else 1 :=
  (flagByte_decide _).trans (ite_not ..)

theorem flagByte_getElem_toNat (a : Byte) {k : Nat} (hk : k < 8) : (flagByte a[k]).toNat = a.toNat / 2 ^ k % 2 := by
  rw [BitVec.getElem_eq_testBit_toNat, ← Nat.toNat_testBit]
  cases a.toNat.testBit k <;> rfl

theorem lowBitFlag_toNat (a : Byte) : (lowBitFlag a).toNat = a.toNat % 2 := by
  simpa [lowBitFlag] using flagByte_getElem_toNat a (k := 0) (by decide)

theorem highBitFlag_toNat (a : Byte) : (highBitFlag a).toNat = a.toNat / 128 := by
  have hbit : (highBitFlag a).toNat = a.toNat / 128 % 2 := flagByte_getElem_toNat a (k := 7) (by decide)
  have := a.isLt
  omega

/-! ## A result, then a flag over it (40_cycle.md R50) -/

/-- The register written last before the advance holds what was written. -/
theorem readV_writeV_advance (s : State) (x : RegIdx) (b : Byte) : (s.writeV x b).advance.readV x = b := by simp

/-- Below `VF` the result stands beside the flag. -/
theorem readV_writeFlag_advance (s : State) {x : RegIdx} (b f : Byte) (hx : x ≠ 15) :
    ((s.writeV x b).writeFlag f).advance.readV x = b := by simp [hx]

/-- The flag is written last, so that it stands in `VF` whatever the destination was. -/
theorem vf_writeFlag_advance (s : State) (f : Byte) : (s.writeFlag f).advance.readV 15 = f :=
  readV_writeV_advance s vf f

/-! ## Loads, immediate addition, logic and the random byte: no flag (42_alu.md R67 to R72, R78) -/

/-- Settles O37: both write `V[x]` alone. -/
theorem loadsSetTheRegister : Obligations.LoadsSetTheRegister := by
  refine fun x y kk s => ⟨⟨decode_ofNat_of_formatXK (op := 0x6) rfl, ?_⟩,
    decode_ofNat_of_formatXYN (op := 0x8) (n := 0) rfl, ?_⟩
  · exact ⟨_, rfl, readV_writeV_advance s x kk, rfl, exec_frame (i := .ldVxKk x kk) rfl⟩
  · exact ⟨_, rfl, readV_writeV_advance s x (s.readV y), rfl, exec_frame (i := .ldVxVy x y) rfl⟩

/-- Settles O38: addition of bytes is modulo 256, and `V[x]` alone is written. -/
theorem addImmediateWrapsWithoutFlag : Obligations.AddImmediateWrapsWithoutFlag := by
  refine fun x kk s => ⟨decode_ofNat_of_formatXK (op := 0x7) rfl, ?_⟩
  refine ⟨_, rfl, ?_, rfl, exec_frame (i := .addVxKk x kk) rfl⟩
  rw [readV_writeV_advance, BitVec.toNat_add]

/-- Settles O39: each bit of the result is the operation on the bits of the operands. -/
theorem logicCombinesBitsWithoutFlag : Obligations.LogicCombinesBitsWithoutFlag := by
  refine fun x y s => ⟨⟨decode_ofNat_of_formatXYN (op := 0x8) (n := 1) rfl, ?_⟩,
    ⟨decode_ofNat_of_formatXYN (op := 0x8) (n := 2) rfl, ?_⟩, decode_ofNat_of_formatXYN (op := 0x8) (n := 3) rfl, ?_⟩
  · refine ⟨_, rfl, fun b => ?_, rfl, exec_frame (i := .orVxVy x y) rfl⟩
    rw [readV_writeV_advance, BitVec.getLsbD_or]
  · refine ⟨_, rfl, fun b => ?_, rfl, exec_frame (i := .andVxVy x y) rfl⟩
    rw [readV_writeV_advance, BitVec.getLsbD_and]
  · refine ⟨_, rfl, fun b => ?_, rfl, exec_frame (i := .xorVxVy x y) rfl⟩
    rw [readV_writeV_advance, BitVec.getLsbD_xor, Bool.bne_eq_xor]

theorem exec_rndVxKk_getLsbD (x : RegIdx) (kk : Byte) (s : State) (b : Nat) :
    ((s.writeV x (s.rnd &&& kk)).advance.readV x).getLsbD b = (s.rnd.getLsbD b && kk.getLsbD b) := by
  rw [readV_writeV_advance, BitVec.getLsbD_and]

/-- Settles O43: RND masks the latched byte, and a step latches the byte it is given before it runs RND. -/
theorem randomByteIsMasked : Obligations.RandomByteIsMasked := by
  refine fun x kk s => ⟨decode_ofNat_of_formatXK (op := 0xC) rfl, ?_, fun hf hd rnd => ?_⟩
  · exact ⟨_, rfl, exec_rndVxKk_getLsbD x kk s, rfl, exec_frame (i := .rndVxKk x kk) rfl⟩
  · exact ⟨_, (stepRunsTheDecodedInstruction s _ hf hd).1 rnd _ rfl, exec_rndVxKk_getLsbD x kk (s.beginStep rnd)⟩

/-! ## Operations with a flag (42_alu.md R73 to R77) -/

/-- Settles O40: the carry is of the old operands and stands over the sum when `x` is F. -/
theorem addLeavesSumAndCarry : Obligations.AddLeavesSumAndCarry := by
  refine fun x y s => ⟨decode_ofNat_of_formatXYN (op := 0x8) (n := 4) rfl, ?_⟩
  refine ⟨_, rfl, fun hx => ?_, ?_, rfl, exec_frame (i := .addVxVy x y) rfl⟩
  · rw [readV_writeFlag_advance s _ _ hx, BitVec.toNat_add]
  · rw [vf_writeFlag_advance, carryFlag_eq_ite]

/-- What SUB and SUBN leave for `a - b` (42_alu.md R74, R76). -/
theorem difference_and_notBorrow {s t : State} {x : RegIdx} {a b : Byte}
    (ht : t = ((s.writeV x (a - b)).writeFlag (notBorrowFlag a b)).advance) :
    (x ≠ 15 → (t.readV x).toNat = (a.toNat + 256 - b.toNat) % 256) ∧
      t.readV 15 = if b.toNat > a.toNat then 0 else 1 := by
  subst ht
  refine ⟨fun hx => ?_, ?_⟩
  · rw [readV_writeFlag_advance s _ _ hx, byte_sub_toNat]
  · rw [vf_writeFlag_advance, notBorrowFlag_eq_ite]

/-- Settles O41: SUBN is SUB with the operands exchanged. -/
theorem subtractsLeaveDifferenceAndNotBorrow : Obligations.SubtractsLeaveDifferenceAndNotBorrow := by
  refine fun x y s => ⟨⟨decode_ofNat_of_formatXYN (op := 0x8) (n := 5) rfl, ?_⟩,
    decode_ofNat_of_formatXYN (op := 0x8) (n := 7) rfl, ?_⟩
  · obtain ⟨hdiff, hflag⟩ := difference_and_notBorrow (s := s) (x := x) (a := s.readV x) (b := s.readV y) rfl
    exact ⟨_, rfl, hdiff, hflag, rfl, exec_frame (i := .subVxVy x y) rfl⟩
  · obtain ⟨hdiff, hflag⟩ := difference_and_notBorrow (s := s) (x := x) (a := s.readV y) (b := s.readV x) rfl
    exact ⟨_, rfl, hdiff, hflag, rfl, exec_frame (i := .subnVxVy x y) rfl⟩

/-- Settles O42: a shift by one is the half or the double, and its flag the old bit 0 or bit 7. -/
theorem shiftsLeaveTheBitShiftedOut : Obligations.ShiftsLeaveTheBitShiftedOut := by
  refine fun x y s => ⟨⟨decode_ofNat_of_formatXYN (op := 0x8) (n := 6) rfl, ?_⟩,
    decode_ofNat_of_formatXYN (op := 0x8) (n := 0xE) rfl, ?_⟩
  · refine ⟨_, rfl, fun hx => ?_, ?_, rfl, exec_frame (i := .shrVx x y) rfl⟩
    · rw [readV_writeFlag_advance s _ _ hx, byte_shiftRight_one_toNat]
    · rw [vf_writeFlag_advance, lowBitFlag_toNat]
  · refine ⟨_, rfl, fun hx => ?_, ?_, rfl, exec_frame (i := .shlVx x y) rfl⟩
    · rw [readV_writeFlag_advance s _ _ hx, byte_shiftLeft_one_toNat]
    · rw [vf_writeFlag_advance, highBitFlag_toNat]

end Sys2Proof.Machine
end

section
/-!
PROOFS. The index register and memory transfers (43_index_memory.md): each instruction with the word it is read from,
what it leaves and its frame.
-/

namespace Sys2Proof

/-- Format `X` with the sub-opcode added to the fixed bits (30_encoding.md R42). -/
theorem decode_ofNat_of_formatX {i : Instr} {op : BitVec 4} {x : RegIdx} {kk : Byte} (h : encode i = formatXK op x kk) :
    decode (BitVec.ofNat 16 (op.toNat * 4096 + kk.toNat + 256 * x.val)) = .ok i := by
  rw [Nat.add_right_comm]
  exact decode_ofNat_of_formatXK h

end Sys2Proof

namespace Sys2Proof.Machine

/-! ## Frames -/

/-- A frame may list more than differs. -/
theorem Frame.mono {regs regs' : List RegIdx} {pieces pieces' : List Piece} {s t : State} (h : Frame regs pieces s t)
    (hr : regs ⊆ regs') (hp : pieces ⊆ pieces') : Frame regs' pieces' s t :=
  ⟨fun j hj => h.1 j fun hm => hj (hr hm), fun p hn => h.2 p fun hm => hn (hp hm)⟩

/-! ## Values of `I` and `VF` as numbers (43_index_memory.md R82, R85, R86) -/

theorem index_add_byte_toNat (i : Word) (b : Byte) : (i + zextByte b).toNat = (i.toNat + b.toNat) % 65536 := by
  rw [BitVec.toNat_add, zextByte_toNat]

theorem index_add_count_toNat (i : Word) (x : RegIdx) :
    (i + BitVec.ofNat 16 (x.val + 1)).toNat = (i.toNat + x.val + 1) % 65536 := by
  rw [BitVec.toNat_add, BitVec.toNat_ofNat, Nat.add_mod_mod, Nat.add_assoc]

theorem indexFlag_eq_ite (i : Word) (b : Byte) : indexFlag i b = if i.toNat + b.toNat > 0x0FFF then 1 else 0 :=
  flagByte_decide _

/-! ## Loads of `I` and addition to it (43_index_memory.md R81 to R83) -/

/-- Settles O44: an address has 12 bits and five times a byte is below 1280, so neither is cut. -/
theorem indexLoadsSetI : Obligations.IndexLoadsSetI := by
  refine fun addr x s => ⟨⟨decode_ofNat_of_encode (formatA_toNat 0xA addr), ?_⟩,
    decode_ofNat_of_formatX (op := 0xF) (kk := 0x29) rfl, ?_⟩
  · exact ⟨_, rfl, zextAddr_toNat addr, rfl, exec_frame (i := .ldIAddr addr) rfl⟩
  · exact ⟨_, rfl, glyphAddr_toNat (s.readV x), rfl, exec_frame (i := .ldFVx x) rfl⟩

/-- Settles O45: `I` keeps 16 bits of the sum, while the flag compares the sum before they are cut. -/
theorem addToIndexFlagsPast12Bits : Obligations.AddToIndexFlagsPast12Bits := by
  refine fun x s => ⟨decode_ofNat_of_formatX (op := 0xF) (kk := 0x1E) rfl, ?_⟩
  refine ⟨_, rfl, index_add_byte_toNat s.i (s.readV x), ?_, rfl, exec_frame (i := .addIVx x) rfl⟩
  rw [vf_writeFlag_advance, indexFlag_eq_ite]

/-! ## Decimal digits (43_index_memory.md R84) -/

theorem bcdHundreds_toNat (b : Byte) : (bcdHundreds b).toNat = b.toNat / 100 := by
  have := b.isLt
  rw [bcdHundreds, BitVec.toNat_ofNat]; omega

theorem bcdTens_toNat (b : Byte) : (bcdTens b).toNat = b.toNat / 10 % 10 := by
  rw [bcdTens, BitVec.toNat_ofNat]; omega

theorem bcdUnits_toNat (b : Byte) : (bcdUnits b).toNat = b.toNat % 10 := by
  rw [bcdUnits, BitVec.toNat_ofNat]; omega

/-- What Fx33 leaves at `I + k` is the `k`-th of the three digits, hundreds first. -/
theorem exec_ldBVx_readMem {x : RegIdx} {s t : State} (h : exec (.ldBVx x) s = .next t) {k : Nat} {b : Byte}
    (hb : [bcdHundreds (s.readV x), bcdTens (s.readV x), bcdUnits (s.readV x)][k]? = some b) :
    t.readMem (effAddr s.i k) = b := by
  obtain rfl := Host.Outcome.next.inj h
  exact s.writeMemBytes_readMem (effAddr s.i 0) k _ b (by simp) hb

/-- Settles O46: the digits are a run of three bytes written at `I`. -/
theorem decimalDigitsAreStoredAtI : Obligations.DecimalDigitsAreStoredAtI := by
  refine fun x s => ⟨decode_ofNat_of_formatX (op := 0xF) (kk := 0x33) rfl, ?_⟩
  refine ⟨_, rfl, ?_, ?_, ?_, fun a ha => s.writeMemBytes_readMem_other (effAddr s.i 0) a _ ha, rfl,
    exec_frame (i := .ldBVx x) rfl⟩
  · rw [exec_ldBVx_readMem rfl (k := 0) rfl, bcdHundreds_toNat]
  · rw [exec_ldBVx_readMem rfl (k := 1) rfl, bcdTens_toNat]
  · rw [exec_ldBVx_readMem rfl (k := 2) rfl, bcdUnits_toNat]

/-! ## Registers to memory and back (43_index_memory.md R85, R86) -/

/-- Fx55 leaves every byte off the addresses `I` to `I + x` as it was. -/
theorem exec_ldMemIVx_readMem_other {x : RegIdx} {s t : State} (h : exec (.ldMemIVx x) s = .next t) {a : Nat}
    (ha : ∀ k, k ≤ x.val → a % 4096 ≠ effAddr s.i k % 4096) : t.readMem a = s.readMem a := by
  obtain rfl := Host.Outcome.next.inj h
  refine s.writeMemBytes_readMem_other (effAddr s.i 0) a _ fun k hk => ha k ?_
  rw [List.length_map, regsUpTo_length] at hk
  exact Nat.le_of_lt_succ hk

/-- Settles O47: the registers are a run of `x + 1` bytes written at `I`. -/
theorem registersAreStoredAtI : Obligations.RegistersAreStoredAtI := by
  refine fun x s => ⟨decode_ofNat_of_formatX (op := 0xF) (kk := 0x55) rfl, ?_⟩
  exact ⟨_, rfl, fun k hk => exec_ldMemIVx_readMem rfl hk, fun a ha => exec_ldMemIVx_readMem_other rfl ha,
    index_add_count_toNat s.i x, rfl,
    (exec_frame (i := .ldMemIVx x) rfl).mono (List.Subset.refl _) (by simp [piecesWritten])⟩

/-- Fx65 loads exactly the registers up to `x`; `VF` is one of them when `x` is F (43_index_memory.md R86). -/
theorem exec_ldVxMemI_readV {x : RegIdx} {s t : State} (h : exec (.ldVxMemI x) s = .next t) (k : RegIdx) :
    t.readV k = if k.val ≤ x.val then s.readMem (effAddr s.i k.val) else s.readV k := by
  obtain rfl := Host.Outcome.next.inj h
  simp [mem_regsUpTo]

/-- Settles O48: a register is up to `x` and loaded, or above it and kept. -/
theorem registersAreLoadedFromI : Obligations.RegistersAreLoadedFromI := by
  refine fun x s => ⟨decode_ofNat_of_formatX (op := 0xF) (kk := 0x65) rfl, ?_⟩
  refine ⟨_, rfl, fun k hk => ?_, fun k hk => ?_, index_add_count_toNat s.i x, rfl,
    (exec_frame (i := .ldVxMemI x) rfl).mono (List.take_subset _ _) (List.Subset.refl _)⟩
  · rw [exec_ldVxMemI_readV rfl, if_pos hk]
  · rw [exec_ldVxMemI_readV rfl, if_neg (Nat.not_le_of_lt hk)]

/-- Settles O49, from the rules of Fx55 and Fx65: the bytes the load reads are those the store wrote, since `I` is the
same and what is put into the registers in between is not memory. -/
theorem storeThenLoadIsARoundTrip : Obligations.StoreThenLoadIsARoundTrip := by
  intro x s other
  obtain ⟨_, t, hstore, hmem, _, hti, _⟩ := registersAreStoredAtI x s
  obtain ⟨_, u, hload, hreg, _, hui, _⟩ := registersAreLoadedFromI x { t with i := s.i, v := other }
  exact ⟨t, u, hstore, hload, fun k hk => (hreg k hk).trans (hmem k hk),
    BitVec.eq_of_toNat_eq (hti.trans hui.symm), hui⟩

end Sys2Proof.Machine
end

section
/-!
PROOFS. The framebuffer instructions (44_display.md): CLS blanks the screen, DRW flips the pixels its sprite covers, and
a sprite drawn twice is undone.
-/

namespace Sys2Proof.Machine

/-! ## CLS (44_display.md R87) -/

theorem getElem_blankScreen (y : Fin 32) (x : Fin 64) : blankScreen[y][x] = false := by simp [blankScreen]

/-- Settles O51: the screen CLS leaves is the blank one, whatever it was. -/
theorem clsBlanksTheScreen : Obligations.ClsBlanksTheScreen :=
  ⟨decodeOfEncodeIsTheInstruction .cls, fun _ => ⟨_, rfl, getElem_blankScreen, rfl, rfl, exec_frame (i := .cls) rfl⟩⟩

/-! ## DRW (44_display.md R88 to R90) -/

section Draw

variable {x y : RegIdx} {n : Fin 16} {s t : State}

/-- The cells of the model's sprite are the covered pixels; both take bit 7 as the leftmost column (44_display.md R89,
log entry 6). -/
theorem mem_spriteCells_iff_spriteCovers {rows : Nat} {py : Fin 32} {px : Fin 64} :
    (py, px) ∈ spriteCells s.mem s.i (s.readV x) (s.readV y) rows ↔ SpriteCovers s x y rows py px := by
  rw [mem_spriteCells]
  refine exists₂_congr fun row col => and_congr_right fun _ => and_congr_right fun _ => ?_
  rw [spriteCell, Prod.mk.injEq, Fin.ext_iff, Fin.ext_iff, and_comm, and_assoc, eq_comm (a := py.val),
    eq_comm (a := px.val)]
  rfl

theorem exec_drwVxVyN_pixel_of_covers (h : exec (.drwVxVyN x y n) s = .next t) {py : Fin 32} {px : Fin 64}
    (hc : SpriteCovers s x y n.val py px) : t.pixel py px = !s.pixel py px := by
  obtain rfl := Host.Outcome.next.inj h
  exact blit_listed _ s.fb false py px (spriteCells_nodup _ _ _ _ _ (by omega)) (mem_spriteCells_iff_spriteCovers.2 hc)

theorem exec_drwVxVyN_pixel_of_not_covers (h : exec (.drwVxVyN x y n) s = .next t) {py : Fin 32} {px : Fin 64}
    (hc : ¬SpriteCovers s x y n.val py px) : t.pixel py px = s.pixel py px := by
  obtain rfl := Host.Outcome.next.inj h
  exact blit_other _ s.fb false py px (mt mem_spriteCells_iff_spriteCovers.1 hc)

/-- A draw notes a hit exactly when a covered pixel was set. -/
theorem blit_hit_iff_covers_set : (blit (spriteCells s.mem s.i (s.readV x) (s.readV y) n.val) s.fb false).2 = true ↔
    ∃ py px, SpriteCovers s x y n.val py px ∧ s.pixel py px = true := by
  rw [blit_hit _ _ _ (spriteCells_nodup _ _ _ _ _ (by omega)), Prod.exists]
  simp [mem_spriteCells_iff_spriteCovers, State.pixel]

theorem exec_drwVxVyN_vf_of_hit (h : exec (.drwVxVyN x y n) s = .next t)
    (hit : ∃ py px, SpriteCovers s x y n.val py px ∧ s.pixel py px = true) : t.readV 15 = 1 := by
  obtain rfl := Host.Outcome.next.inj h
  rw [vf_writeFlag_advance, blit_hit_iff_covers_set.2 hit]
  rfl

theorem exec_drwVxVyN_vf_of_no_hit (h : exec (.drwVxVyN x y n) s = .next t)
    (hno : ∀ py px, SpriteCovers s x y n.val py px → s.pixel py px = false) : t.readV 15 = 0 := by
  obtain rfl := Host.Outcome.next.inj h
  have hmiss : ¬∃ py px, SpriteCovers s x y n.val py px ∧ s.pixel py px = true := by
    rintro ⟨py, px, hc, hset⟩
    simp [hno py px hc] at hset
  rw [vf_writeFlag_advance, Bool.eq_false_iff.2 (mt blit_hit_iff_covers_set.1 hmiss)]
  rfl

/-- What a sprite covers is decided by its two coordinates, `I` and memory, and a draw changes a coordinate only if that
is `VF`. -/
theorem spriteCovers_iff_of_frame {rows : Nat} {py : Fin 32} {px : Fin 64} (h : Frame [15] [.screen] s t) (hx : x ≠ 15)
    (hy : y ≠ 15) : SpriteCovers t x y rows py px ↔ SpriteCovers s x y rows py px := by
  obtain ⟨hreg, hpiece⟩ := h
  have hi : t.i = s.i := hpiece .i (by decide)
  have hmem : ∀ a, t.readMem a = s.readMem a := hpiece .mem (by decide)
  have hvx : t.readV x = s.readV x := hreg x (by simpa using hx)
  have hvy : t.readV y = s.readV y := hreg y (by simpa using hy)
  simp only [SpriteCovers, hi, hmem, hvx, hvy]

theorem fb_eq_of_pixel_eq (h : ∀ py px, t.pixel py px = s.pixel py px) : t.fb = s.fb :=
  Vector.ext fun py hy => Vector.ext fun px hx => h ⟨py, hy⟩ ⟨px, hx⟩

end Draw

/-- Settles O52: no cell of a sprite repeats (44_display.md R90), so that the blit flips each covered pixel once and
meets it as it was before the draw. -/
theorem drawFlipsExactlyTheCoveredPixels : Obligations.DrawFlipsExactlyTheCoveredPixels := by
  intro x y n s
  refine ⟨decode_ofNat_of_encode ((formatXYN_toNat 0xD x y n).trans ?_), ?_⟩
  · rw [Nat.mul_comm x.val, Nat.mul_comm y.val]
    rfl
  · exact ⟨_, rfl, fun _ _ => exec_drwVxVyN_pixel_of_covers rfl, fun _ _ => exec_drwVxVyN_pixel_of_not_covers rfl,
      exec_drwVxVyN_vf_of_hit rfl, exec_drwVxVyN_vf_of_no_hit rfl, rfl, rfl, exec_frame (i := .drwVxVyN x y n) rfl⟩

/-- Settles O53, from the rule of one draw: both draws cover the same pixels, so that each is flipped twice or never. -/
theorem drawingTwiceRestoresTheScreen : Obligations.DrawingTwiceRestoresTheScreen := by
  intro x y n s hx hy
  obtain ⟨_, t, ht, htflip, htkeep, _, _, _, _, hframe⟩ := drawFlipsExactlyTheCoveredPixels x y n s
  obtain ⟨_, u, hu, huflip, hukeep, _⟩ := drawFlipsExactlyTheCoveredPixels x y n t
  refine ⟨t, u, ht, hu, fb_eq_of_pixel_eq fun py px => ?_⟩
  have hsame := spriteCovers_iff_of_frame (rows := n.val) (py := py) (px := px) hframe hx hy
  by_cases hc : SpriteCovers s x y n.val py px
  · rw [huflip py px (hsame.2 hc), htflip py px hc, Bool.not_not]
  · rw [hukeep py px (mt hsame.1 hc), htkeep py px hc]

end Sys2Proof.Machine
end

section
/-!
PROOFS. Key input and timer access (45_timers_input.md): each instruction with the word it is read from, what it leaves
and its frame, and for the timers the step it runs in.
-/

namespace Sys2Proof.Machine

/-! ## Key skips (45_timers_input.md R91, R92) -/

section KeySkips

variable {s : State} {x : RegIdx} {k : Fin 16} {w : Word}

theorem exec_skpVx_of_key (h : (s.readV x).toNat = k.val) : exec (.skpVx x) s = .next (s.skipIf s.key[k]) := by
  change execSkpVx x s = _
  rw [execSkpVx, keyIndex_eq_some.2 h]

theorem exec_sknpVx_of_key (h : (s.readV x).toNat = k.val) : exec (.sknpVx x) s = .next (s.skipIf (!s.key[k])) := by
  change execSknpVx x s = _
  rw [execSknpVx, keyIndex_eq_some.2 h]

/-- The record carries the word SKP is read from, which the encoder gives back (60_exceptions.md R98). -/
theorem exec_skpVx_of_gt (hd : decode w = .ok (.skpVx x)) (h : 0xF < (s.readV x).toNat) :
    exec (.skpVx x) s = .next (s.takeFault .keyIndexRange w) := by
  change execSkpVx x s = _
  rw [execSkpVx, keyIndex_eq_none.2 h, encode_of_decode hd]

/-- The record carries the word SKNP is read from, which the encoder gives back (60_exceptions.md R98). -/
theorem exec_sknpVx_of_gt (hd : decode w = .ok (.sknpVx x)) (h : 0xF < (s.readV x).toNat) :
    exec (.sknpVx x) s = .next (s.takeFault .keyIndexRange w) := by
  change execSknpVx x s = _
  rw [execSknpVx, keyIndex_eq_none.2 h, encode_of_decode hd]

end KeySkips

/-- Settles O54: `V[x]` up to 0xF names the key the skip asks for, and above it names none. -/
theorem keySkipsReadTheKeyOrFault : Obligations.KeySkipsReadTheKeyOrFault := by
  intro x s
  have hskp : decode (BitVec.ofNat 16 (0xE09E + 256 * x.val)) = .ok (.skpVx x) :=
    decode_ofNat_of_formatX (op := 0xE) (kk := 0x9E) rfl
  have hsknp : decode (BitVec.ofNat 16 (0xE0A1 + 256 * x.val)) = .ok (.sknpVx x) :=
    decode_ofNat_of_formatX (op := 0xE) (kk := 0xA1) rfl
  refine ⟨⟨hskp, fun h => ?_, fun h => ?_⟩, hsknp, fun h => ?_, fun h => ?_⟩
  · exact ⟨_, exec_skpVx_of_key (k := ⟨_, Nat.lt_succ_of_le h⟩) rfl, skipIf_pc_and_frame .rfl⟩
  · exact ⟨_, exec_skpVx_of_gt hskp h, rfl, rfl, frame_takeFault s _ _⟩
  · exact ⟨_, exec_sknpVx_of_key (k := ⟨_, Nat.lt_succ_of_le h⟩) rfl,
      skipIf_pc_and_frame (iff_of_eq (Bool.not_eq_true' _))⟩
  · exact ⟨_, exec_sknpVx_of_gt hsknp h, rfl, rfl, frame_takeFault s _ _⟩

/-! ## Waiting for a key (45_timers_input.md R94) -/

theorem exec_ldVxK_of_highest {s : State} (x : RegIdx) {k : Fin 16} (hk : s.key[k] = true)
    (h : ∀ j : Fin 16, k < j → s.key[j] = false) :
    exec (.ldVxK x) s = .next (s.writeV x (keyByte k)).advance := by
  change execLdVxK x s = _
  rw [execLdVxK, highestKey_of_highest hk h]

/-- Settles O56: the scan ends at the highest pressed key, or finds none and the state stays as it is. -/
theorem keyWaitTakesTheHighestPressedKey : Obligations.KeyWaitTakesTheHighestPressedKey := by
  refine fun x s => ⟨decode_ofNat_of_formatX (op := 0xF) (kk := 0x0A) rfl, fun k hk hmax => ?_, fun hnone => ?_⟩
  · have hexec := exec_ldVxK_of_highest x hk hmax
    refine ⟨_, hexec, ?_, rfl, exec_frame hexec⟩
    rw [readV_writeV_advance, keyByte_toNat]
  · exact ⟨s, exec_ldVxK_of_no_key x hnone, rfl, .refl _ _ s⟩

/-! ## The timers (45_timers_input.md R93, R95, R96) -/

/-- Settles O55: the tick comes after the execute phase, which reads `DT` as the step found it, and it writes no
register. -/
theorem delayTimerIsReadBeforeTheTick : Obligations.DelayTimerIsReadBeforeTheTick := by
  refine fun x s => ⟨decode_ofNat_of_formatX (op := 0xF) (kk := 0x07) rfl, ?_, fun hf hd => ?_⟩
  · exact ⟨_, rfl, readV_writeV_advance s x s.dt, rfl, exec_frame (i := .ldVxDt x) rfl⟩
  · exact ⟨_, (stepRunsTheDecodedInstruction s _ hf hd).2 _ rfl, readV_writeV_advance (begun s) x s.dt,
      tickByte_toNat s.dt⟩

/-- Settles O57: the tick after the execute phase finds `V[x]` in the timer just written. -/
theorem timerWritesAreTickedInTheSameStep : Obligations.TimerWritesAreTickedInTheSameStep := by
  refine fun x s => ⟨⟨decode_ofNat_of_formatX (op := 0xF) (kk := 0x15) rfl, ?_, fun hf hd => ?_⟩,
    decode_ofNat_of_formatX (op := 0xF) (kk := 0x18) rfl, ?_, fun hf hd => ?_⟩
  · exact ⟨_, rfl, rfl, rfl, exec_frame (i := .ldDtVx x) rfl⟩
  · exact ⟨_, (stepRunsTheDecodedInstruction s _ hf hd).2 _ rfl, tickByte_toNat (s.readV x)⟩
  · exact ⟨_, rfl, rfl, rfl, exec_frame (i := .ldStVx x) rfl⟩
  · exact ⟨_, (stepRunsTheDecodedInstruction s _ hf hd).2 _ rfl, tickByte_toNat (s.readV x)⟩

end Sys2Proof.Machine
end

section
/-!
PROOFS. The moves of the host between steps (60_exceptions.md R108 to R110): SetKeys and ClearRedraw have frames, and
every move keeps the invariant, so every state the host can bring the core to has it.
-/

namespace Sys2Proof.Machine

/-! ## SetKeys and ClearRedraw -/

theorem keepsPiece_setKeys {s t : State} {p : Piece} {k : Vector Bool 16} (hp : p ≠ .key) :
    KeepsPiece s (t.setKeys k) p ↔ KeepsPiece s t p := by
  cases p
  case key => contradiction
  all_goals rfl

theorem keepsPiece_clearRedraw {s t : State} {p : Piece} (hp : p ≠ .screen) :
    KeepsPiece s t.clearRedraw p ↔ KeepsPiece s t p := by
  cases p
  case screen => contradiction
  all_goals rfl

theorem frame_setKeys (s : State) (k : Vector Bool 16) : Frame [] [.key] s (s.setKeys k) :=
  frame_of_keepsPiece rfl fun p hp => (keepsPiece_setKeys (by simpa using hp)).2 (.refl s p)

theorem frame_clearRedraw (s : State) : Frame [] [.screen] s s.clearRedraw :=
  frame_of_keepsPiece rfl fun p hp => (keepsPiece_clearRedraw (by simpa using hp)).2 (.refl s p)

/-- Settles O4: each move replaces one field, and ClearRedraw leaves the pixels as they are. -/
theorem keysAndRedrawMovesTouchNothingElse : Obligations.KeysAndRedrawMovesTouchNothingElse :=
  fun s k => ⟨⟨_, rfl, rfl, rfl, frame_setKeys s k⟩, _, rfl, rfl, rfl, rfl, frame_clearRedraw s⟩

/-! ## The invariant under the host's moves -/

@[simp] theorem inv_beginStep {s : State} {rnd : Byte} : (s.beginStep rnd).Inv ↔ s.Inv := .rfl
@[simp] theorem inv_setKeys {s : State} {k : Vector Bool 16} : (s.setKeys k).Inv ↔ s.Inv := .rfl
@[simp] theorem inv_clearRedraw {s : State} : s.clearRedraw.Inv ↔ s.Inv := .rfl

theorem hostReset_inv (s : State) : s.hostReset.Inv := inv_of_fault_none reset_mem_wf rfl

/-- A Load that fits writes into the memory of Reset, and an oversized one changes nothing
(70_reset_and_hazards.md R118). -/
theorem hostLoad_inv {s : State} (hs : s.Inv) (image : List Byte) : (s.hostLoad image).2.Inv := by
  unfold State.hostLoad
  split
  · exact inv_of_fault_none (wf_writeBytes reset_mem_wf _ image) rfl
  · exact hs

/-- A cycle keeps the invariant whatever byte the host gave, by its three ways to end. -/
theorem cycle_inv {s t : State} (hs : s.Inv) (h : cycle s = .next t) : t.Inv := by
  rcases cycle_cases h with ⟨_, rfl⟩ | ⟨hf, i, u, hd, hu, rfl⟩ | ⟨hf, _, rfl⟩
  · exact inv_tick.2 hs
  · exact inv_tick.2 (exec_inv hs.1 hf hd hu)
  · exact inv_tick.2 (inv_of_fault_none hs.1 hf)

theorem hostMove_inv {m : HostMove} {s t : State} (hs : s.Inv) (h : hostMove m s = .next t) : t.Inv := by
  cases m with
  | reset => exact Host.Outcome.next.inj h ▸ hostReset_inv s
  | load image => exact Host.Outcome.next.inj h ▸ hostLoad_inv hs image
  | step rnd => exact cycle_inv (inv_beginStep.2 hs) h
  | setKeys k => exact Host.Outcome.next.inj h ▸ inv_setKeys.2 hs
  | clearRedraw => exact Host.Outcome.next.inj h ▸ inv_clearRedraw.2 hs

/-- Settles O30, by induction over the moves: Reset's state has the invariant and every move keeps it. That Load may
come at any time is log entry 7, and the canonical form of memory log entry 5. -/
theorem reachableStatesHaveTheInvariant : Obligations.ReachableStatesHaveTheInvariant := by
  intro s hs
  induction hs with
  | reset => exact invariantHoldsAtReset
  | move m s t _ hmove ih => exact hostMove_inv ih hmove

end Sys2Proof.Machine
end

section
/-!
PROOFS. What every step reports, ticks and records as a fault (60_exceptions.md R97 to R105, 40_cycle.md R53, R54).
-/

namespace Sys2Proof

/-- The words that are no instruction are those the decoder rejects (30_encoding.md R45, R46). -/
theorem isInstrWord_eq_false_iff {w : Word} : isInstrWord w = false ↔ ∃ e, decode w = .error e := by
  refine ⟨fun hw => ⟨_, (decodeAcceptsExactlyTheTableRows w).2 hw⟩, fun ⟨e, he⟩ => ?_⟩
  exact isInstrWord_eq_false_of_unknown ((decode_eq_ok_or_unknown w).resolve_left (by simp [he]))

end Sys2Proof

namespace Sys2Proof.Machine

/-! ## The report (60_exceptions.md R99) -/

theorem report_notMem_piecesWritten (i : Instr) : .report ∉ piecesWritten i := by
  cases i <;> simp [piecesWritten]

/-- A step starts with no report, and no instruction emits one. -/
theorem exec_begun_report {i : Instr} {s u : State} (h : exec i (begun s) = .next u) : u.report = none :=
  exec_keeps (p := .report) h (report_notMem_piecesWritten i)

/-- Settles O19, by the three ways a step ends: only the one that rejects the word emits a report. -/
theorem reportComesFromThisStepOnly : Obligations.ReportComesFromThisStepOnly := by
  intro s t hstep r
  rcases step_cases hstep with ⟨hf, rfl⟩ | ⟨_, i, u, hd, hu, rfl⟩ | ⟨hf, he, rfl⟩
  · simp [hf, begun]
  · simp [exec_begun_report hu, isInstrWord_eq_false_iff, hd]
  · simp [hf, isInstrWord_eq_false_iff.2 he, begun, eq_comm]

/-! ## The tick (60_exceptions.md R105) -/

theorem dt_mem_piecesWritten {i : Instr} : .dt ∈ piecesWritten i ↔ ∃ x, i = .ldDtVx x := by
  cases i <;> simp [piecesWritten]

theorem st_mem_piecesWritten {i : Instr} : .st ∈ piecesWritten i ↔ ∃ x, i = .ldStVx x := by
  cases i <;> simp [piecesWritten]

/-- Every step ends in a tick, and the state it ticks still has each piece, a timer too, that the step's instruction does
not write. -/
theorem step_eq_tick_of_not_written {s t : State} {p : Piece} (h : step s = .next t) (hrnd : p ≠ .random)
    (hrep : p ≠ .report) (hno : ∀ i, s.fault = none → decode s.fetchWord = .ok i → p ∉ piecesWritten i) :
    ∃ u, t = u.tick ∧ KeepsPiece s u p := by
  have hbegun : KeepsPiece s (begun s) p := (keepsPiece_begun hrnd hrep).2 (.refl s p)
  rcases step_cases h with ⟨_, rfl⟩ | ⟨hf, i, u, hd, hu, rfl⟩ | ⟨_, _, rfl⟩
  · exact ⟨_, rfl, hbegun⟩
  · exact ⟨u, rfl, hbegun.trans (exec_keeps hu (hno i hf hd))⟩
  · exact ⟨_, rfl, (keepsPiece_reportUnknown hrep).2 hbegun⟩

theorem step_dt_of_not_written {s t : State} (h : step s = .next t)
    (hno : ∀ x, ¬(s.fault = none ∧ decode s.fetchWord = .ok (.ldDtVx x))) : t.dt.toNat = s.dt.toNat - 1 := by
  obtain ⟨u, rfl, hdt : u.dt = s.dt⟩ := step_eq_tick_of_not_written (p := .dt) h (by decide) (by decide)
    fun i hf hd hi => by
      obtain ⟨x, rfl⟩ := dt_mem_piecesWritten.1 hi
      exact hno x ⟨hf, hd⟩
  exact hdt ▸ tickByte_toNat u.dt

theorem step_st_of_not_written {s t : State} (h : step s = .next t)
    (hno : ∀ x, ¬(s.fault = none ∧ decode s.fetchWord = .ok (.ldStVx x))) : t.st.toNat = s.st.toNat - 1 := by
  obtain ⟨u, rfl, hst : u.st = s.st⟩ := step_eq_tick_of_not_written (p := .st) h (by decide) (by decide)
    fun i hf hd hi => by
      obtain ⟨x, rfl⟩ := st_mem_piecesWritten.1 hi
      exact hno x ⟨hf, hd⟩
  exact hst ▸ tickByte_toNat u.st

/-- Settles O20: Fx15 and Fx18 write `V[x]` and every other step keeps the timer, and then both timers are ticked. -/
theorem everyStepTicksBothTimers : Obligations.EveryStepTicksBothTimers := by
  intro s t hstep
  refine ⟨fun x hf hd => ?_, step_dt_of_not_written hstep, fun x hf hd => ?_, step_st_of_not_written hstep⟩
  · obtain ⟨u, hu, rfl⟩ := exec_of_step hstep hf hd
    obtain rfl := Host.Outcome.next.inj hu
    exact tickByte_toNat (s.readV x)
  · obtain ⟨u, hu, rfl⟩ := exec_of_step hstep hf hd
    obtain rfl := Host.Outcome.next.inj hu
    exact tickByte_toNat (s.readV x)

/-! ## Faults (60_exceptions.md R97, R98, 40_cycle.md R54) -/

@[simp] theorem faultCondition_begun {s : State} {i : Instr} {c : FaultCause} :
    FaultCondition (begun s) i c ↔ FaultCondition s i c := by
  cases c <;> rfl

/-- Under the condition of 60_exceptions.md R97 the execute phase records the fault and writes nothing else. -/
theorem exec_of_faultCondition {i : Instr} {s : State} {c : FaultCause} (h : FaultCondition s i c) :
    exec i s = .next (s.takeFault c (encode i)) := by
  cases c with
  | stackOverflow =>
    obtain ⟨hsp, addr, rfl⟩ := h
    rw [exec_callAddr_of_full addr hsp, ← encode_callAddr_toNat, BitVec.ofNat_toNat, BitVec.setWidth_eq]
  | stackUnderflow =>
    obtain ⟨hsp, rfl⟩ := h
    exact exec_ret_of_empty hsp
  | keyIndexRange =>
    obtain ⟨x, rfl | rfl, hx⟩ := h
    · exact exec_skpVx_of_gt (decodeOfEncodeIsTheInstruction _) hx
    · exact exec_sknpVx_of_gt (decodeOfEncodeIsTheInstruction _) hx

/-- A step whose instruction meets its fault condition records the cause, `PC` and the fetched word. -/
theorem fault_of_faultCondition {i : Instr} {s t : State} {c : FaultCause} (h : step s = .next t) (hf : s.fault = none)
    (hd : decode s.fetchWord = .ok i) (hc : FaultCondition s i c) : t.fault = some ⟨c, s.pc, s.fetchWord⟩ := by
  obtain ⟨u, hu, rfl⟩ := exec_of_step h hf hd
  rw [exec_of_faultCondition (faultCondition_begun.2 hc), encode_of_decode hd] at hu
  obtain rfl := Host.Outcome.next.inj hu
  rfl

/-- A step that sets `FAULT` ran an instruction that meets its fault condition, and did nothing but record it and
tick. -/
theorem step_fault_cases {s t : State} (h : step s = .next t) (hf : s.fault = none) (ht : t.fault ≠ none) :
    ∃ i c, decode s.fetchWord = .ok i ∧ FaultCondition s i c ∧ t = ((begun s).takeFault c (encode i)).tick := by
  rcases step_cases h with ⟨hf', _⟩ | ⟨_, i, u, hd, hu, rfl⟩ | ⟨_, _, rfl⟩
  · exact absurd hf hf'
  · rcases exec_fault_cases hu with hkeep | ⟨c, hc, rfl⟩
    · exact absurd (hkeep.trans hf) ht
    · exact ⟨i, c, hd, faultCondition_begun.1 hc, rfl⟩
  · exact absurd hf ht

/-- A faulting step makes none of the instruction's writes (40_cycle.md R54). -/
theorem frame_takeFault_tick (s : State) (c : FaultCause) (w : Word) :
    Frame [] [.dt, .st, .fault, .random, .report] s ((begun s).takeFault c w).tick :=
  ((frame_begun_tick s).mono (by simp) (by simp)).trans
    ((frame_takeFault (begun s).tick c w).mono (by simp) (by simp))

/-- The three rows of the fault table, read off the fetched word (60_exceptions.md R97). -/
theorem decoded_of_faultCondition {s : State} {i : Instr} {c : FaultCause} (hd : decode s.fetchWord = .ok i)
    (hc : FaultCondition s i c) :
    (∃ addr, decode s.fetchWord = .ok (.callAddr addr) ∧ s.sp.val = 16) ∨
    (decode s.fetchWord = .ok .ret ∧ s.sp.val = 0) ∨
    ∃ x, (decode s.fetchWord = .ok (.skpVx x) ∨ decode s.fetchWord = .ok (.sknpVx x)) ∧ 0x0F < (s.readV x).toNat := by
  cases c with
  | stackOverflow =>
    obtain ⟨hsp, addr, rfl⟩ := hc
    exact .inl ⟨addr, hd, hsp⟩
  | stackUnderflow =>
    obtain ⟨hsp, rfl⟩ := hc
    exact .inr (.inl ⟨hd, hsp⟩)
  | keyIndexRange =>
    obtain ⟨x, rfl | rfl, hx⟩ := hc
    · exact .inr (.inr ⟨x, .inl hd, hx⟩)
    · exact .inr (.inr ⟨x, .inr hd, hx⟩)

/-- Settles O18: a step faults exactly under the condition of its instruction, with the fetched word, which the encoder
gives back; an `UNKNOWN` word is reported instead. -/
theorem faultsFollowTheTableAndWriteNothing : Obligations.FaultsFollowTheTableAndWriteNothing := by
  intro s t hf hstep
  refine ⟨fun addr hd hsp => ?_, fun hd hsp => ?_, fun x hd hx => ?_, fun hw => ?_, fun ht => ?_⟩
  · exact fault_of_faultCondition (c := .stackOverflow) hstep hf hd ⟨hsp, addr, rfl⟩
  · exact fault_of_faultCondition (c := .stackUnderflow) hstep hf hd ⟨hsp, rfl⟩
  · rcases hd with hd | hd
    · exact fault_of_faultCondition (c := .keyIndexRange) hstep hf hd ⟨x, .inl rfl, hx⟩
    · exact fault_of_faultCondition (c := .keyIndexRange) hstep hf hd ⟨x, .inr rfl, hx⟩
  · obtain rfl := Host.Outcome.next.inj ((step_of_unknown hf hw).symm.trans hstep)
    exact ⟨hf, rfl⟩
  · obtain ⟨i, c, hd, hc, rfl⟩ := step_fault_cases hstep hf ht
    exact ⟨decoded_of_faultCondition hd hc, rfl, tickByte_toNat s.dt, tickByte_toNat s.st, rfl,
      frame_takeFault_tick s c (encode i)⟩

end Sys2Proof.Machine
end

section
/-!
PROOFS. Load (70_reset_and_hazards.md R118): the length check has two outcomes, and the image lies above 0x200 without
wrapping, so it covers itself and nothing else.
-/

namespace Sys2Proof.Machine

theorem imageFits_iff {image : List Byte} : imageFits image ↔ image.length ≤ 3584 := decide_eq_true_iff

theorem hostLoad_of_gt (s : State) {image : List Byte} (h : 3584 < image.length) :
    s.hostLoad image = (.tooLarge, s) :=
  if_neg (imageFits_iff.not.2 (Nat.not_le.2 h))

theorem hostLoad_of_le (s : State) {image : List Byte} (h : image.length ≤ 3584) :
    s.hostLoad image = (.ok, s.hostReset.writeMemBytes 0x200 image) :=
  if_pos (imageFits_iff.2 h)

theorem frame_writeMemBytes (s : State) (a : Nat) (bs : List Byte) : Frame [] [.mem] s (s.writeMemBytes a bs) :=
  frame_of_keepsPiece rfl fun p hp => (keepsPiece_writeMemBytes (by simpa using hp)).2 (.refl s p)

/-- Bytes written without wrapping leave every address below and above them. -/
theorem readMem_writeMemBytes_outside (s : State) {a c : Nat} {bs : List Byte} (hend : a + bs.length ≤ 4096)
    (hc : c < 4096) (hout : c < a ∨ a + bs.length ≤ c) : (s.writeMemBytes a bs).readMem c = s.readMem c :=
  s.writeMemBytes_readMem_other a c bs fun k hk => by
    rw [Nat.mod_eq_of_lt hc, Nat.mod_eq_of_lt (by omega)]
    omega

/-- Settles O2: an image that fits is one write of bytes at 0x200 into the state of Reset, and it ends by 0x1000. -/
theorem loadCopiesTheImageAfterReset : Obligations.LoadCopiesTheImageAfterReset := by
  intro s image
  refine ⟨hostLoad_of_gt s, fun hlen => ⟨_, hostLoad_of_le s hlen, fun k b hb => ?_, fun a ha hout => ?_, rfl,
    frame_writeMemBytes s.hostReset 0x200 image⟩⟩
  · exact s.hostReset.writeMemBytes_readMem 0x200 k image b (by omega) hb
  · exact readMem_writeMemBytes_outside s.hostReset (by omega) ha hout

end Sys2Proof.Machine
end

section
/-!
PROOFS. The delay timer over a run with no Fx15 (90_conflicts.md C7, 95_test_vectors.md S8).
-/

namespace Sys2Proof.Machine

/-- Settles O21, by induction over the steps: the first one runs no Fx15 and takes 1 from `DT`, and the premise for the
run from `s` is, one step later, the premise for the run from the state it answers. -/
theorem delayTimerCountsStepsWithoutFx15 : Obligations.DelayTimerCountsStepsWithoutFx15 := by
  intro n
  induction n with
  | zero => exact fun s _ => ⟨s, rfl, rfl⟩
  | succ n ih =>
    intro s hno
    obtain ⟨u, hstep : step s = .next u⟩ := cycle_eq_next (begun s)
    have hfirst : u.dt.toNat = s.dt.toNat - 1 :=
      step_dt_of_not_written hstep fun x ⟨hf, hd⟩ => hno 0 s x n.succ_pos rfl hf hd
    obtain ⟨t, hrun, hrest⟩ := ih u fun k t x hk hrun =>
      hno (k + 1) t x (Nat.succ_lt_succ hk) ((run_succ_of_next hstep).trans hrun)
    exact ⟨t, (run_succ_of_next hstep).trans hrun, by omega⟩

end Sys2Proof.Machine
end
